-- ==== Sys2Proof/Word.lean ====
section
/-! DEFINITION. The word types of the block and their plainest arithmetic (00_scope.md R8, R9, R31). -/

namespace Sys2Proof

/-- A byte of the byte stream, of a buffer, or of a packed configuration register (R31). -/
abbrev Byte := BitVec 8

/-- A host bus word (R80). -/
abbrev Word := BitVec 32

/-- A host bus address, 12 bits (R80). -/
abbrev Addr := BitVec 12

end Sys2Proof
end

