-- ==== Sys2Proof/Config.lean ====
section
/-! DEFINITION. What an implementation fixes (00_scope.md R6, R7): the OPEN parameters as one record of plain data,
which a state carries and no step writes, the constants the source states, and the one free value of the model. -/

namespace Sys2Proof

/-- The parameters R6 marks OPEN, and BAUD_OF. A claim about every state is a claim about every value of them
(log 3). Durations are in ticks (R12). BAUD_OF and INIT_BAUD are 32 bits wide, as CUR_BAUD and the argument of
BaudReq are (R39, R100; log 4). -/
structure Params where
  /-- HAS_AUX: a busy-signal input is connected. -/
  hasAux : Bool
  /-- AUX_READY_LEVEL: the AUX level that means "ready". -/
  auxReadyLevel : BitVec 1
  /-- T_PRE: pre-transition settle delay. -/
  tPre : Nat
  /-- T_POST: post-transition settle delay. -/
  tPost : Nat
  /-- T_AUX_TO: busy-wait timeout. -/
  tAuxTo : Nat
  /-- T_BLIND: blind delay where there is no AUX. -/
  tBlind : Nat
  /-- T_RD_SETTLE: READ_PARAMS delay between request and read. -/
  tRdSettle : Nat
  /-- T_SAVE_PRE: SAVE_PARAMS and SET_CRYPT_KEY delay after entering PROGRAM. -/
  tSavePre : Nat
  /-- T_QRSSI: QUERY_RSSI delay between command and reply read. -/
  tQrssi : Nat
  /-- RX_TIMEOUT: inter-byte timeout of a counted read. -/
  rxTimeout : Nat
  /-- BAUD_OF: the baud rate of each of the eight UART codes. -/
  baudOf : Vector Word 8
  /-- INIT_BAUD: the reset value of CUR_BAUD. -/
  initBaud : Word
  /-- PAYLOAD_MAX: the size of the payload buffer in bytes. -/
  payloadMax : Nat
  deriving DecidableEq, Repr

/-- The constraints of R7: 1 <= PAYLOAD_MAX <= 3840, and every baud rate is a positive integer. -/
abbrev Params.Wf (p : Params) : Prop :=
  1 ≤ p.payloadMax ∧ p.payloadMax ≤ 3840 ∧ ∀ c : Fin 8, p.baudOf.get c ≠ 0

/-- Every duration can be reached by the 32-bit saturating timer (R22). R6 only asks for natural numbers, and a
longer one never elapses (log 13). -/
abbrev Params.Reachable (p : Params) : Prop :=
  p.tPre < 2 ^ 32 ∧ p.tPost < 2 ^ 32 ∧ p.tAuxTo < 2 ^ 32 ∧ p.tBlind < 2 ^ 32 ∧ p.tRdSettle < 2 ^ 32 ∧
    p.tSavePre < 2 ^ 32 ∧ p.tQrssi < 2 ^ 32 ∧ p.rxTimeout < 2 ^ 32

/-- The default UART code table of 92_eei_decisions.md D19 (93 GK1). -/
def Config.defaultBaudOf : Vector Word 8 :=
  #v[1200#32, 2400#32, 4800#32, 9600#32, 19200#32, 38400#32, 57600#32, 115200#32]

/-- The parameters of 95_test_vectors.md's conventions: the ones State.reset carries (log 3). The conventions name
no INIT_BAUD and no AUX_READY_LEVEL: 9600 is read from the start of its program P5, 1 from its vectors M2 and M4
(log 4). -/
def Config.vectorParams : Params where
  hasAux := false
  auxReadyLevel := 1#1
  tPre := 2
  tPost := 3
  tAuxTo := 4
  tBlind := 5
  tRdSettle := 1
  tSavePre := 1
  tQrssi := 1
  rxTimeout := 2
  baudOf := Config.defaultBaudOf
  initBaud := 9600#32
  payloadMax := 64

/-- T_DRAIN_CAP (R6, R188). -/
def Config.tDrainCap : Nat := 5000

/-- T_SAVE_RESP (R6, R213). -/
def Config.tSaveResp : Nat := 5000

/-- T_RSSI_POLL (R6, R232). -/
def Config.tRssiPoll : Nat := 5

/-- PROG_BAUD (R6, R184). -/
def Config.progBaud : Word := 9600#32

/-- CFG_START_ADDR (R6, R140; 92 D23). -/
def Config.cfgStartAddr : Byte := 0x00#8

/-- FREE VALUE (log 8): the count the environment answers a TxWrite with (R96 "chosen freely") where the default
schedule lets it answer, by the number of such answers before it. It has no body: no proof can see it. The model
uses it bounded by n, which is the only limit R96 sets. -/
opaque Config.freeCount : Nat → BitVec 16

end Sys2Proof
end

