-- ==== Sys2Proof/Machine/State.lean ====
section
/-! DEFINITION. Everything the spec gives the machine (10_state.md), the environment state a model must carry (R53,
R54), and the moves that say which agent steps next (00_scope.md R20, R21). Plain data throughout. -/

namespace Sys2Proof.Machine

/-- The sixteen stored fields of the staged configuration image (R32). The packed bytes REG0, REG1, REG3 and the
16-bit ADDR are derived and have no storage (R32, R34). -/
structure Image where
  uart : BitVec 3
  parity : BitVec 2
  airRate : BitVec 3
  subPacket : BitVec 2
  ambNoiseEn : BitVec 1
  reg1Rsv : BitVec 3
  txPower : BitVec 2
  rssiByteEn : BitVec 1
  txMode : BitVec 1
  reg3Rsv5 : BitVec 1
  lbtEn : BitVec 1
  reg3Rsv3 : BitVec 1
  worTiming : BitVec 3
  addh : Byte
  addl : Byte
  channel : Byte
  deriving DecidableEq, Repr

/-- The step labels UPC and RET hold (R50, R51): IDLE and every step of every micro-program. -/
inductive Label where
  | idle
  | sm1 | sm2 | sm3 | sm4 | sm5 | sm6 | sm7 | sm8
  | sf1 | gf1 | lr1 | nd1
  | rp1 | rp2 | rp3 | rp4 | rp5 | rp6 | rp7 | rp8
  | sp1 | sp2 | sp3 | sp4 | sp5 | sp6 | sp7 | sp8
  | ck1 | ck2 | ck3 | ck4 | ck5 | ck6 | ck7
  | ds1 | ds2 | ds3
  | dr1 | dr2 | dr3 | dr4 | dr5 | dr6
  | qr1 | qr2 | qr3 | qr4 | qr5 | qr6
  deriving DecidableEq, Repr

/-- The four byte buffers (R46) as one memory, keyed by the host byte address of each buffer byte (R86): addresses
strictly rising, no entry equal to what an unlisted address reads as (Memory.Wf, Machine/Memory.lean). -/
abbrev Memory := List Host.Cell

/-- One host bus access (R81). -/
inductive Access where
  /-- MemRead(addr, 4). -/
  | read (a : Addr)
  /-- MemWrite(addr, 4, v). -/
  | write (a : Addr) (v : Word)
  deriving DecidableEq, Repr

/-- One line of a host program (R146, R147). -/
inductive HostLine where
  /-- WR, RD or WRP: one access. -/
  | access (x : Access)
  /-- WAITDONE: repeat RD STATUS until BUSY = 0. -/
  | waitDone
  deriving DecidableEq, Repr

/-- The values a reset draws for what R281 leaves unspecified: the image, and the bytes of the four buffers (those
not listed are drawn 0). -/
structure ResetDraw where
  img : Image
  cells : List Host.Cell
  deriving DecidableEq, Repr

/-- One step of one agent (R20), and reset (R280). -/
inductive Move where
  /-- Host: one bus access (R81). -/
  | access (x : Access)
  /-- Host: the next access of the host program. -/
  | prog
  /-- Host side: reset, with its draws (R280, R281, R282). -/
  | reset (d : ResetDraw)
  /-- Block: one micro-step of the current command (R14), none when idle. -/
  | block
  /-- Clock: one tick (R22). -/
  | tick
  /-- Environment: append one byte to RXQ (R53). -/
  | rxByte (b : Byte)
  /-- Environment: change the AUX level (R36). -/
  | auxLevel (l : BitVec 1)
  /-- Environment: answer the pending TxWrite with the count w (R96). -/
  | txAnswer (w : BitVec 16)
  /-- Environment: consume one baud request (R20, R100). -/
  | takeBaud
  deriving DecidableEq, Repr

/-- The machine. Block state is 10_state.md R30 (1) to (6). -/
structure State where
  /-- The implementation parameters (R6); no step writes them (log 3). -/
  par : Params
  -- R30 (1), the staged image
  img : Image
  -- R30 (2), mode-select outputs and mode record (R35, R37)
  m0 : BitVec 1
  m1 : BitVec 1
  lastMode : BitVec 3
  -- R30 (3), baud-rate control (R38, R39)
  autobaudEn : Bool
  curBaud : Word
  -- R30 (4), STATUS (R40), RESULT (R41), SAMPLES (R42), XFER (R43)
  busy : Bool
  done : Bool
  ok : Bool
  overrun : Bool
  err : BitVec 4
  auxTo : Bool
  drainTo : Bool
  rssiValid : Bool
  result : Word
  rssiRx : Byte
  noise : Byte
  lastRssi : Byte
  wcount : BitVec 16
  rcount : BitVec 16
  -- R30 (5), FRAME, XBUF, RBUF, PAYLOAD (R46)
  mem : Memory
  -- R30 (6), the FSM's internal state (R50)
  cmdlat : Word
  upc : Label
  ret : Option Label
  smt : BitVec 2
  tmr : Word
  got : BitVec 16
  txpend : Bool
  wto : Bool
  /-- The count the environment has answered and the block has not taken yet (R96; the model's own field, log 9). -/
  txAns : Option (BitVec 16)
  -- environment state (R36, R53, R54)
  rxq : List Byte
  aux : BitVec 1
  /-- Every byte the transport accepted, oldest first, with the mode code on the pins. -/
  txlog : List (Byte × BitVec 2)
  /-- Every BaudReq value, oldest first. -/
  baudlog : List Word
  /-- How many entries of baudlog the environment has consumed (R20; the model's own field, log 10). -/
  baudTaken : Nat
  -- the model's own bookkeeping: no block state
  /-- The moves already decided, next first (log 1). -/
  agenda : List Move
  /-- The host program still to run (log 14). -/
  prog : List HostLine
  /-- What each host read returned, oldest first (R81; log 14). -/
  busReads : List (Addr × Word)
  /-- How many free values have been used (log 8). -/
  draws : Nat
  deriving DecidableEq, Repr

/-- How a step can stop. None is a fault of the hardware, which has none (R255, R259): each is reached only from a
state no run reaches, so each is safe. -/
inductive Fault where
  /-- Raised by a meaning (exec) where UPC is no label of the command's micro-program (log 11). Safe: the
  hardware reaches no such state. -/
  | labelOutsideProgram
  /-- Raised by the block's step where a command runs and CMDLAT holds no legal word (log 11). Safe: R251 latches a
  legal word before it sets UPC. -/
  | latchIllegal
  /-- Raised by RECEIVE's DR4 where RxPop would find RXQ empty, which R98 forbids and R232 says cannot happen
  (log 12). Safe. -/
  | popOfEmptyQueue
  deriving DecidableEq, Repr

/-- Why an instruction has no meaning. -/
inductive Refusal where
  /-- Raised by exec's arm of an instruction that has no meaning yet: none is left. Safe. -/
  | notModelled (mnemonic : String)
  deriving DecidableEq, Repr

/-- The draw of State.reset for the image (log 5). -/
def Image.zero : Image where
  uart := 0
  parity := 0
  airRate := 0
  subPacket := 0
  ambNoiseEn := 0
  reg1Rsv := 0
  txPower := 0
  rssiByteEn := 0
  txMode := 0
  reg3Rsv5 := 0
  lbtEn := 0
  reg3Rsv3 := 0
  worTiming := 0
  addh := 0
  addl := 0
  channel := 0

/-- The machine right after the reset that begins a run (R280), with the parameters of log 3, the draws of log 5
and log 6, and the environment of log 7. -/
def State.reset : State where
  par := Config.vectorParams
  img := Image.zero
  m0 := 0
  m1 := 0
  lastMode := 7
  autobaudEn := false
  curBaud := Config.vectorParams.initBaud
  busy := false
  done := false
  ok := false
  overrun := false
  err := 0
  auxTo := false
  drainTo := false
  rssiValid := false
  result := 0
  rssiRx := 0
  noise := 0
  lastRssi := 0
  wcount := 0
  rcount := 0
  mem := []
  cmdlat := 0
  upc := .idle
  ret := none
  smt := 0
  tmr := 0
  got := 0
  txpend := false
  wto := false
  txAns := none
  rxq := []
  aux := 0
  txlog := []
  baudlog := []
  baudTaken := 0
  agenda := []
  prog := []
  busReads := []
  draws := 0

end Sys2Proof.Machine
end

