-- ==== Sys2Proof/Machine/Flags.lean ====
section
/-! DEFINITION. The flags: the STATUS word (10_state.md R40), the error codes (60_exceptions.md R250), completion
(R252) and `raise` (00_scope.md R13). -/

namespace Sys2Proof.Machine

/-- The named error codes of R250 that `raise` takes, and ILLEGAL. -/
inductive ErrCode where
  | shortIo | echoMismatch | precondition | illegal
  deriving DecidableEq, Repr

/-- code(E) (R250). -/
def ErrCode.bits : ErrCode → BitVec 4
  | .shortIo => 1#4
  | .echoMismatch => 2#4
  | .precondition => 3#4
  | .illegal => 4#4

/-- complete(ok, err) (R252): it writes BUSY, DONE, OK, ERR, UPC and RET, and nothing else. -/
def State.complete (s : State) (ok : Bool) (err : BitVec 4) : State :=
  { s with busy := false, done := true, ok := ok, err := err, upc := .idle, ret := none }

/-- complete(1, 0). -/
def State.succeed (s : State) : State := s.complete true 0#4

/-- raise E = complete(0, code(E)) (R13). The block has no other exception entry: nothing is saved and no control is
transferred (R259). -/
def State.raise (s : State) (e : ErrCode) : State := s.complete false e.bits

/-- A flag as one bit. -/
def bit (b : Bool) : BitVec 1 := if b then 1#1 else 0#1

/-- The STATUS word (R40): bits 31:15 and 11 read 0. -/
def State.statusWord (s : State) : Word :=
  (0#17 ++ s.lastMode ++ 0#1 ++ bit s.rssiValid ++ bit s.drainTo ++ bit s.auxTo ++ s.err ++ bit s.overrun ++
    bit s.ok ++ bit s.done ++ bit s.busy : BitVec 32)

end Sys2Proof.Machine
end

