-- ==== Sys2Proof/Machine/Memory.lean ====
section
/-! DEFINITION. The byte memory of the four buffers (10_state.md R46, 20_memory.md R86) and its operations. Byte i of
a buffer whose window starts at address B has the key B + i: the lane formula of R86 puts it in the word at
B + 4*(i div 4), lane i mod 4, whose host byte address is that sum. -/

namespace Sys2Proof.Machine

/-- What an address nothing has written reads as (log 6). R281's other draws are listed by the reset move. -/
def Memory.unlisted : Byte := 0#8

/-- The byte at an address. -/
def Memory.read : Memory → Nat → Byte
  | [], _ => Memory.unlisted
  | (k, b) :: m, a => if k = a then b else Memory.read m a

/-- A cell in front of a memory, unless it holds what an unlisted address reads as. -/
def Memory.cons (a : Nat) (b : Byte) (m : Memory) : Memory := if b = Memory.unlisted then m else (a, b) :: m

/-- Write the byte at an address, keeping the canonical form. -/
def Memory.write : Memory → Nat → Byte → Memory
  | [], a, b => Memory.cons a b []
  | (k, c) :: m, a, b =>
    if a < k then Memory.cons a b ((k, c) :: m)
    else if a = k then Memory.cons a b m
    else (k, c) :: Memory.write m a b

/-- Write bytes at rising addresses from a base, index 0 first. -/
def Memory.writeBytes (m : Memory) (base : Nat) : List Byte → Memory
  | [] => m
  | b :: bs => Memory.writeBytes (Memory.write m base b) (base + 1) bs

/-- The first `n` bytes from a base, index 0 first. -/
def Memory.bytes (m : Memory) (base n : Nat) : List Byte := (List.range n).map fun i => Memory.read m (base + i)

/-- The canonical form: addresses strictly rising, and no entry equal to what an unlisted address reads as. -/
abbrev Memory.Wf (m : Memory) : Prop :=
  m.Pairwise (fun c d => c.1 < d.1) ∧ ∀ c ∈ m, c.2 ≠ Memory.unlisted

/-- The window base of FRAME (R86). -/
def frameBase : Nat := 0x040

/-- The window base of XBUF (R86). -/
def xbufBase : Nat := 0x050

/-- The window base of RBUF (R86). -/
def rbufBase : Nat := 0x058

/-- The window base of PAYLOAD (R86). -/
def payloadBase : Nat := 0x100

/-- An address of a PAYLOAD byte (R46 d, R86). -/
def isPayloadByte (payloadMax a : Nat) : Bool := payloadBase ≤ a && a < payloadBase + payloadMax

/-- An address of a buffer byte (R46, R86); every other byte lane reads 0. -/
def isBufferByte (payloadMax a : Nat) : Bool :=
  (frameBase ≤ a && a < frameBase + 9) || (xbufBase ≤ a && a < xbufBase + 6) ||
    (rbufBase ≤ a && a < rbufBase + 5) || isPayloadByte payloadMax a

/-- The memory a reset draws (R281): the listed bytes that are buffer bytes. -/
def Memory.ofDraw (payloadMax : Nat) : List Host.Cell → Memory
  | [] => []
  | (a, b) :: cs =>
    if isBufferByte payloadMax a then Memory.write (Memory.ofDraw payloadMax cs) a b
    else Memory.ofDraw payloadMax cs

end Sys2Proof.Machine
end

