-- ==== Sys2Proof/Syntax.lean ====
section
/-! DEFINITION. The commands: one constructor for every row of spec/opcode_table.json (30_encoding.md R123), their
operands turned into names where the spec names them (R125, R126, R127). -/

namespace Sys2Proof

/-- The sixteen image fields, in the order of their field ids (R125). -/
inductive Field where
  | uart | parity | airRate
  | subPacket | ambNoiseEn | reg1Rsv | txPower
  | rssiByteEn | txMode | reg3Rsv5 | lbtEn | reg3Rsv3 | worTiming
  | addh | addl | channel
  deriving DecidableEq, Repr

/-- The six registers of the configuration body, in the order of their register ids (R126). -/
inductive Reg where
  | addh | addl | reg0 | reg1 | channel | reg3
  deriving DecidableEq, Repr

/-- The persistence code p of SAVE_PARAMS (R127). -/
inductive Persistence where
  | permanent | temporary
  deriving DecidableEq, Repr

/-- The eleven commands of R123. Operands are unsigned and taken as R121 says. -/
inductive Instr where
  /-- SET_MODE mc: drive the mode-select pins to mode code mc = M1 ++ M0 (R124, R181). -/
  | setMode (mc : BitVec 2)
  /-- SET_FIELD fid, v (R161). -/
  | setField (f : Field) (v : BitVec 16)
  /-- GET_FIELD fid (R162). -/
  | getField (f : Field)
  /-- LOAD_REG rid, b (R163). -/
  | loadReg (r : Reg) (b : Byte)
  /-- NOISE_DBM raw (R164). -/
  | noiseDbm (raw : BitVec 9)
  /-- READ_PARAMS (R211). -/
  | readParams
  /-- SAVE_PARAMS p (R213). -/
  | saveParams (p : Persistence)
  /-- SET_CRYPT_KEY key (R214). -/
  | setCryptKey (key : BitVec 16)
  /-- SEND n (R231). -/
  | send (n : BitVec 16)
  /-- RECEIVE n (R232). -/
  | receive (n : BitVec 16)
  /-- QUERY_RSSI (R233). -/
  | queryRssi
  deriving DecidableEq, Repr

end Sys2Proof
end

