-- ==== Sys2Proof/WellFormed.lean ====
section
/-! DEFINITION. Which commands are well formed: R123's value constraints that the types of Syntax.lean do not
already carry. (rid <= 5 is in the type Reg.) -/

namespace Sys2Proof

/-- `n <= PAYLOAD_MAX` for SEND and RECEIVE (R123, R231, R232); every other command is well formed. -/
abbrev Instr.WellFormed (payloadMax : Nat) : Instr → Prop
  | .send n => n.toNat ≤ payloadMax
  | .receive n => n.toNat ≤ payloadMax
  | .setMode _ | .setField _ _ | .getField _ | .loadReg _ _ | .noiseDbm _ | .readParams | .saveParams _
  | .setCryptKey _ | .queryRssi => True

end Sys2Proof
end

