-- ==== Sys2Proof/Decode.lean ====
section
/-! DEFINITION. The command word (30_encoding.md R120 to R128, R148): its fields, the decoder, the encoder, and the
opcode map as mask and match. -/

namespace Sys2Proof

/-- Why a command word is illegal: the three cases of R128. -/
inductive Illegal where
  /-- The word's OP has no row. -/
  | unassignedOpcode
  /-- A must-be-zero bit of the row is set. -/
  | mustBeZero
  /-- The row's value constraint does not hold. -/
  | valueConstraint
  deriving DecidableEq, Repr

/-- OP = w[31:24] (R120). -/
def Word.op (w : Word) : BitVec 8 := w.extractLsb' 24 8

/-- SEL = w[23:16] (R120). -/
def Word.sel (w : Word) : BitVec 8 := w.extractLsb' 16 8

/-- DATA = w[15:0] (R120). -/
def Word.data (w : Word) : BitVec 16 := w.extractLsb' 0 16

/-- The field of a field id (R125). -/
def Field.ofId (fid : BitVec 4) : Field :=
  match fid.toNat with
  | 0 => .uart
  | 1 => .parity
  | 2 => .airRate
  | 3 => .subPacket
  | 4 => .ambNoiseEn
  | 5 => .reg1Rsv
  | 6 => .txPower
  | 7 => .rssiByteEn
  | 8 => .txMode
  | 9 => .reg3Rsv5
  | 10 => .lbtEn
  | 11 => .reg3Rsv3
  | 12 => .worTiming
  | 13 => .addh
  | 14 => .addl
  | _ => .channel

/-- The field id of a field (R125). -/
def Field.id : Field → BitVec 4
  | .uart => 0#4
  | .parity => 1#4
  | .airRate => 2#4
  | .subPacket => 3#4
  | .ambNoiseEn => 4#4
  | .reg1Rsv => 5#4
  | .txPower => 6#4
  | .rssiByteEn => 7#4
  | .txMode => 8#4
  | .reg3Rsv5 => 9#4
  | .lbtEn => 10#4
  | .reg3Rsv3 => 11#4
  | .worTiming => 12#4
  | .addh => 13#4
  | .addl => 14#4
  | .channel => 15#4

/-- The register of a register id; 6 and 7 are illegal (R126). -/
def Reg.ofId (rid : BitVec 3) : Option Reg :=
  match rid.toNat with
  | 0 => some .addh
  | 1 => some .addl
  | 2 => some .reg0
  | 3 => some .reg1
  | 4 => some .channel
  | 5 => some .reg3
  | _ => none

/-- The register id of a register (R126). -/
def Reg.id : Reg → BitVec 3
  | .addh => 0#3
  | .addl => 1#3
  | .reg0 => 2#3
  | .reg1 => 3#3
  | .channel => 4#3
  | .reg3 => 5#3

/-- The persistence of SEL[0] (R127). -/
def Persistence.ofBit (p : BitVec 1) : Persistence := if p = 0#1 then .permanent else .temporary

/-- SEL[0] of a persistence (R127). -/
def Persistence.bit : Persistence → BitVec 1
  | .permanent => 0#1
  | .temporary => 1#1

/-- Answer `i` where the must-be-zero bits of its row are 0 (R122). -/
def mbz (zero : Bool) (i : Except Illegal Instr) : Except Illegal Instr :=
  if zero then i else .error .mustBeZero

/-- Answer `i` where the row's value constraint holds (R122). -/
def constrained (holds : Bool) (i : Instr) : Except Illegal Instr :=
  if holds then .ok i else .error .valueConstraint

/-- The opcode map of R123 over the fields OP, SEL and DATA, with the operands of R121. -/
def decodeFields (payloadMax : Nat) (op sel : BitVec 8) (data : BitVec 16) : Except Illegal Instr :=
  match op.toNat with
  | 0x01 => mbz (sel &&& 0xFC#8 == 0#8 && data == 0#16) (.ok (.setMode (sel.extractLsb' 0 2)))
  | 0x02 => mbz (sel &&& 0xF0#8 == 0#8) (.ok (.setField (Field.ofId (sel.extractLsb' 0 4)) data))
  | 0x03 => mbz (sel &&& 0xF0#8 == 0#8 && data == 0#16) (.ok (.getField (Field.ofId (sel.extractLsb' 0 4))))
  | 0x04 =>
    mbz (sel &&& 0xF8#8 == 0#8 && data &&& 0xFF00#16 == 0#16)
      (match Reg.ofId (sel.extractLsb' 0 3) with
        | some r => .ok (.loadReg r (data.extractLsb' 0 8))
        | none => .error .valueConstraint)
  | 0x05 => mbz (sel == 0#8 && data &&& 0xFE00#16 == 0#16) (.ok (.noiseDbm (data.extractLsb' 0 9)))
  | 0x10 => mbz (sel == 0#8 && data == 0#16) (.ok .readParams)
  | 0x11 =>
    mbz (sel &&& 0xFE#8 == 0#8 && data == 0#16) (.ok (.saveParams (Persistence.ofBit (sel.extractLsb' 0 1))))
  | 0x12 => mbz (sel == 0#8) (.ok (.setCryptKey data))
  | 0x13 => mbz (sel == 0#8) (constrained (data.toNat ≤ payloadMax) (.send data))
  | 0x14 => mbz (sel == 0#8) (constrained (data.toNat ≤ payloadMax) (.receive data))
  | 0x15 => mbz (sel == 0#8 && data == 0#16) (.ok .queryRssi)
  | _ => .error .unassignedOpcode

/-- Decoding is total: every 32-bit word is exactly one legal command or illegal, by name (R122). No mode bit
changes it (R129); PAYLOAD_MAX is the one parameter it reads. -/
def decode (payloadMax : Nat) (w : Word) : Except Illegal Instr :=
  decodeFields payloadMax (Word.op w) (Word.sel w) (Word.data w)

/-- enc(OP, SEL, DATA) = OP ++ SEL ++ DATA (R148). -/
def enc (op sel : BitVec 8) (data : BitVec 16) : Word := op ++ sel ++ data

/-- The command word of a command, from the opcode map of R123 and the operand places of R121. -/
def encode : Instr → Word
  | .setMode mc => enc 0x01#8 (mc.setWidth 8) 0#16
  | .setField f v => enc 0x02#8 (f.id.setWidth 8) v
  | .getField f => enc 0x03#8 (f.id.setWidth 8) 0#16
  | .loadReg r b => enc 0x04#8 (r.id.setWidth 8) (b.setWidth 16)
  | .noiseDbm raw => enc 0x05#8 0#8 (raw.setWidth 16)
  | .readParams => enc 0x10#8 0#8 0#16
  | .saveParams p => enc 0x11#8 (p.bit.setWidth 8) 0#16
  | .setCryptKey key => enc 0x12#8 0#8 key
  | .send n => enc 0x13#8 0#8 n
  | .receive n => enc 0x14#8 0#8 n
  | .queryRssi => enc 0x15#8 0#8 0#16

/-- A row of R123's table as its mask, match and value constraint columns give it. -/
structure OpRow where
  mnemonic : String
  pattern : Word
  mask : Word
  /-- The value constraint column, of PAYLOAD_MAX and the word. -/
  holds : Nat → Word → Bool

/-- R123's table, row by row (a second reading of it, independent of the decoder). -/
def opTable : List OpRow :=
  [⟨"SET_MODE", 0x01000000#32, 0xFFFCFFFF#32, fun _ _ => true⟩,
   ⟨"SET_FIELD", 0x02000000#32, 0xFFF00000#32, fun _ _ => true⟩,
   ⟨"GET_FIELD", 0x03000000#32, 0xFFF0FFFF#32, fun _ _ => true⟩,
   ⟨"LOAD_REG", 0x04000000#32, 0xFFF8FF00#32, fun _ w => (w.extractLsb' 16 3).toNat ≤ 5⟩,
   ⟨"NOISE_DBM", 0x05000000#32, 0xFFFFFE00#32, fun _ _ => true⟩,
   ⟨"READ_PARAMS", 0x10000000#32, 0xFFFFFFFF#32, fun _ _ => true⟩] ++
  [⟨"SAVE_PARAMS", 0x11000000#32, 0xFFFEFFFF#32, fun _ _ => true⟩,
   ⟨"SET_CRYPT_KEY", 0x12000000#32, 0xFFFF0000#32, fun _ _ => true⟩,
   ⟨"SEND", 0x13000000#32, 0xFFFF0000#32, fun pm w => (w.extractLsb' 0 16).toNat ≤ pm⟩,
   ⟨"RECEIVE", 0x14000000#32, 0xFFFF0000#32, fun pm w => (w.extractLsb' 0 16).toNat ≤ pm⟩,
   ⟨"QUERY_RSSI", 0x15000000#32, 0xFFFFFFFF#32, fun _ _ => true⟩]

/-- "A word is legal for a row when (w & mask) == match and the row's constraint holds" (R123). -/
def OpRow.matches (row : OpRow) (payloadMax : Nat) (w : Word) : Bool :=
  w &&& row.mask == row.pattern && row.holds payloadMax w

/-- The row of a command. -/
def Instr.mnemonic : Instr → String
  | .setMode _ => "SET_MODE"
  | .setField _ _ => "SET_FIELD"
  | .getField _ => "GET_FIELD"
  | .loadReg _ _ => "LOAD_REG"
  | .noiseDbm _ => "NOISE_DBM"
  | .readParams => "READ_PARAMS"
  | .saveParams _ => "SAVE_PARAMS"
  | .setCryptKey _ => "SET_CRYPT_KEY"
  | .send _ => "SEND"
  | .receive _ => "RECEIVE"
  | .queryRssi => "QUERY_RSSI"

/-- The host's question: the command the decoder reads from a word given as a number, with the PAYLOAD_MAX of
State.reset's parameters. A command is one 32-bit word, so bits above 32 make it none. -/
def decodeTableWord (nbits w : Nat) : Option Instr :=
  if nbits ≤ 32 ∧ w < 2 ^ nbits then
    match decode Config.vectorParams.payloadMax (BitVec.ofNat 32 w) with
    | .ok i => some i
    | .error _ => none
  else none

end Sys2Proof
end

