-- ==== Sys2Proof/Machine/Operands.lean ====
section
/-! DEFINITION. The operand forms of the commands: image fields by field id, configuration registers by register id
(40_codec.md R160, R165), and the mode code on the pins. -/

namespace Sys2Proof

/-- width(fid) (R125). -/
def Field.width : Field → Nat
  | .uart | .airRate | .reg1Rsv | .worTiming => 3
  | .parity | .subPacket | .txPower => 2
  | .ambNoiseEn | .rssiByteEn | .txMode | .reg3Rsv5 | .lbtEn | .reg3Rsv3 => 1
  | .addh | .addl | .channel => 8

/-- The position of each field: its register and its lowest bit there (R125, R131 to R134). -/
def Field.place : Field → Reg × Nat
  | .uart => (.reg0, 5)
  | .parity => (.reg0, 3)
  | .airRate => (.reg0, 0)
  | .subPacket => (.reg1, 6)
  | .ambNoiseEn => (.reg1, 5)
  | .reg1Rsv => (.reg1, 2)
  | .txPower => (.reg1, 0)
  | .rssiByteEn => (.reg3, 7)
  | .txMode => (.reg3, 6)
  | .reg3Rsv5 => (.reg3, 5)
  | .lbtEn => (.reg3, 4)
  | .reg3Rsv3 => (.reg3, 3)
  | .worTiming => (.reg3, 0)
  | .addh => (.addh, 0)
  | .addl => (.addl, 0)
  | .channel => (.channel, 0)

/-- The registers in the order of their ids, which is the order of the frame body (R126). -/
def Reg.all : List Reg := [.addh, .addl, .reg0, .reg1, .channel, .reg3]

/-- The command byte of SAVE_PARAMS (R127, R142). -/
def Persistence.command : Persistence → Byte
  | .permanent => 0xC0#8
  | .temporary => 0xC2#8

end Sys2Proof

namespace Sys2Proof.Machine

/-- zext_32(F[fid]) (R162). -/
def Image.field (f : Image) : Field → Word
  | .uart => f.uart.setWidth 32
  | .parity => f.parity.setWidth 32
  | .airRate => f.airRate.setWidth 32
  | .subPacket => f.subPacket.setWidth 32
  | .ambNoiseEn => f.ambNoiseEn.setWidth 32
  | .reg1Rsv => f.reg1Rsv.setWidth 32
  | .txPower => f.txPower.setWidth 32
  | .rssiByteEn => f.rssiByteEn.setWidth 32
  | .txMode => f.txMode.setWidth 32
  | .reg3Rsv5 => f.reg3Rsv5.setWidth 32
  | .lbtEn => f.lbtEn.setWidth 32
  | .reg3Rsv3 => f.reg3Rsv3.setWidth 32
  | .worTiming => f.worTiming.setWidth 32
  | .addh => f.addh.setWidth 32
  | .addl => f.addl.setWidth 32
  | .channel => f.channel.setWidth 32

/-- F[fid] <- trunc_{width(fid)}(v) (R161). -/
def Image.setField (f : Image) (fid : Field) (v : BitVec 16) : Image :=
  match fid with
  | .uart => { f with uart := v.setWidth 3 }
  | .parity => { f with parity := v.setWidth 2 }
  | .airRate => { f with airRate := v.setWidth 3 }
  | .subPacket => { f with subPacket := v.setWidth 2 }
  | .ambNoiseEn => { f with ambNoiseEn := v.setWidth 1 }
  | .reg1Rsv => { f with reg1Rsv := v.setWidth 3 }
  | .txPower => { f with txPower := v.setWidth 2 }
  | .rssiByteEn => { f with rssiByteEn := v.setWidth 1 }
  | .txMode => { f with txMode := v.setWidth 1 }
  | .reg3Rsv5 => { f with reg3Rsv5 := v.setWidth 1 }
  | .lbtEn => { f with lbtEn := v.setWidth 1 }
  | .reg3Rsv3 => { f with reg3Rsv3 := v.setWidth 1 }
  | .worTiming => { f with worTiming := v.setWidth 3 }
  | .addh => { f with addh := v.setWidth 8 }
  | .addl => { f with addl := v.setWidth 8 }
  | .channel => { f with channel := v.setWidth 8 }

/-- REG0 = pack0(F) (R131, R160). -/
def Image.pack0 (f : Image) : Byte := f.uart ++ f.parity ++ f.airRate

/-- REG1 = pack1(F) (R132, R160). -/
def Image.pack1 (f : Image) : Byte := f.subPacket ++ f.ambNoiseEn ++ f.reg1Rsv ++ f.txPower

/-- REG3 = pack3(F) (R133, R160). -/
def Image.pack3 (f : Image) : Byte :=
  f.rssiByteEn ++ f.txMode ++ f.reg3Rsv5 ++ f.lbtEn ++ f.reg3Rsv3 ++ f.worTiming

/-- ADDR = ADDH ++ ADDL (R34). -/
def Image.addr (f : Image) : BitVec 16 := f.addh ++ f.addl

/-- regbyte(rid) (R160). -/
def Image.regbyte (f : Image) : Reg → Byte
  | .addh => f.addh
  | .addl => f.addl
  | .reg0 => f.pack0
  | .reg1 => f.pack1
  | .channel => f.channel
  | .reg3 => f.pack3

/-- setReg(rid, b) (R165): AMB_NOISE_EN is bit 5 (90 C4). -/
def Image.setReg (f : Image) (r : Reg) (b : Byte) : Image :=
  match r with
  | .addh => { f with addh := b }
  | .addl => { f with addl := b }
  | .reg0 =>
    { f with uart := b.extractLsb' 5 3, parity := b.extractLsb' 3 2, airRate := b.extractLsb' 0 3 }
  | .reg1 =>
    { f with subPacket := b.extractLsb' 6 2, ambNoiseEn := b.extractLsb' 5 1, reg1Rsv := b.extractLsb' 2 3,
             txPower := b.extractLsb' 0 2 }
  | .channel => { f with channel := b }
  | .reg3 =>
    { f with rssiByteEn := b.extractLsb' 7 1, txMode := b.extractLsb' 6 1, reg3Rsv5 := b.extractLsb' 5 1,
             lbtEn := b.extractLsb' 4 1, reg3Rsv3 := b.extractLsb' 3 1, worTiming := b.extractLsb' 0 3 }

/-- The six body bytes of a configuration frame (R140, R210). -/
def Image.body (f : Image) : List Byte := Reg.all.map f.regbyte

/-- RP6: setReg(rid, body byte rid) for rid in 0..5, in that order (R211). -/
def Image.unpackBody (f : Image) (body : Reg → Byte) : Image := Reg.all.foldl (fun g r => g.setReg r (body r)) f

/-- trunc_32(zext_32(raw) - 256), the source's -(256 - raw) (R164). -/
def noiseDbmOf (raw : BitVec 9) : Word := raw.setWidth 32 - 256#32

/-- mc = M1 ++ M0, the mode code on the pins (R35). -/
def State.modeCode (s : State) : BitVec 2 := s.m1 ++ s.m0

/-- BAUD_OF(F.UART), read from the staged image at the step (R184). -/
def State.configuredBaud (s : State) : Word := s.par.baudOf.get s.img.uart.toFin

end Sys2Proof.Machine
end

