-- ==== Sys2Proof/Machine/Ops.lean ====
section
/-! DEFINITION. The block's shared operations: moving UPC with the entry effects of the timing primitives (10_state.md
R51, 41_mode_fsm.md R186), the waiting primitives (20_memory.md R96 to R99, 41_mode_fsm.md R187 to R190), the pins, the
baud request, the call of SET_MODE and frame staging.

Every operation that waits answers the state unchanged while its step is not enabled: "a waiting step leaves it
unchanged until the step's condition holds" (R51). -/

namespace Sys2Proof.Machine

/-- The waiting primitives of R102, with their operands. -/
inductive Prim where
  | delay (t : Nat)
  | waitRx (t : Nat)
  | drain
  | busyWait
  | rxRead (base n : Nat)
  | txWrite (base n : Nat)
  deriving DecidableEq, Repr

/-- The primitive the step at a label runs, if it runs one; a transfer of DATA bytes takes its size from CMDLAT
(R94, R121). DR3 runs its WaitFor only where F.RSSI_BYTE_EN = 1 (R232; log 15). -/
def State.primAt (s : State) : Label → Option Prim
  | .sm1 => some (.delay s.par.tPre)
  | .sm5 => some (.delay s.par.tPost)
  | .sm6 => some .drain
  | .sm7 => some .busyWait
  | .rp3 => some (.txWrite frameBase 3)
  | .rp4 => some (.delay s.par.tRdSettle)
  | .rp5 => some (.rxRead frameBase 9)
  | .sp3 => some (.delay s.par.tSavePre)
  | .sp4 => some (.txWrite frameBase 9)
  | .sp5 => some (.waitRx Config.tSaveResp)
  | .sp6 => some (.rxRead frameBase 9)
  | .ck3 => some (.delay s.par.tSavePre)
  | .ck4 => some (.txWrite xbufBase 5)
  | .ck5 => some (.rxRead rbufBase 5)
  | .ds1 => some (.txWrite payloadBase (Word.data s.cmdlat).toNat)
  | .ds2 => some .busyWait
  | .dr2 => some (.rxRead payloadBase (Word.data s.cmdlat).toNat)
  | .dr3 => if s.img.rssiByteEn = 1#1 then some (.waitRx Config.tRssiPoll) else none
  | .dr5 => some .busyWait
  | .qr3 => some (.txWrite xbufBase 6)
  | .qr4 => some (.delay s.par.tQrssi)
  | .qr5 => some (.rxRead rbufBase 5)
  | .idle | .sm2 | .sm3 | .sm4 | .sm8 | .sf1 | .gf1 | .lr1 | .nd1 | .rp1 | .rp2 | .rp6 | .rp7 | .rp8
  | .sp1 | .sp2 | .sp7 | .sp8 | .ck1 | .ck2 | .ck6 | .ck7 | .ds3 | .dr1 | .dr4 | .dr6 | .qr1 | .qr2 | .qr6 => none

/-- The primitives that the timer counts in: "Delay, WaitFor, Drain, BusyWait or RxRead" (R186). -/
def Prim.timed : Prim → Bool
  | .txWrite _ _ => false
  | .delay _ | .waitRx _ | .drain | .busyWait | .rxRead _ _ => true

/-- Whether ticks are counted at a label (R102, R186). -/
def State.timedAt (s : State) (l : Label) : Bool := (s.primAt l).any Prim.timed

/-- Whether a label holds an RxRead, whose entry clears GOT (R99; log 15). -/
def Label.reads : Label → Bool
  | .rp5 | .sp6 | .ck5 | .dr2 | .qr5 => true
  | _ => false

/-- Move UPC to a label (R51): the entry of a timing primitive or RxRead clears TMR (R186), the entry of an RxRead
clears GOT (R99). -/
def State.goto (s : State) (l : Label) : State :=
  { s with upc := l, tmr := if s.timedAt l then 0 else s.tmr, got := if l.reads then 0 else s.got }

/-- TMR >= t. -/
def State.elapsed (s : State) (t : Nat) : Bool := t ≤ s.tmr.toNat

/-- Delay(t) (R187): the step is enabled only when TMR >= t, and it leaves the primitive. -/
def State.delay (s : State) (t : Nat) (next : Label) : State := if s.elapsed t then s.goto next else s

/-- WaitFor(RxAvail() > 0, t) (R190): `leave timedOut` is the state that the step leaves with. -/
def State.waitRx (s : State) (t : Nat) (leave : Bool → State) : State :=
  if s.rxq ≠ [] then leave false else if s.elapsed t then leave true else s

/-- Drain() (R188). -/
def State.drain (s : State) (next : Label) : State :=
  match s.rxq with
  | [] => s.goto next
  | _ :: q =>
    if s.elapsed Config.tDrainCap then ({ s with drainTo := true } : State).goto next else { s with rxq := q }

/-- BusyWait() (R189, R190): a timeout sets AUX_TO and proceeds. -/
def State.busyWait (s : State) (next : Label) : State :=
  if s.par.hasAux then
    if s.aux = s.par.auxReadyLevel then s.goto next
    else if s.elapsed s.par.tAuxTo then ({ s with auxTo := true } : State).goto next
    else s
  else s.delay s.par.tBlind next

/-- k <- RxRead(BUF, n); R.RCOUNT <- k (R99): `base` is the buffer's window base. -/
def State.rxRead (s : State) (base n : Nat) (next : Label) : State :=
  let exit := ({ s with rcount := s.got } : State).goto next
  if s.got.toNat = n then exit
  else
    match s.rxq with
    | b :: q => { s with mem := s.mem.write (base + s.got.toNat) b, rxq := q, got := s.got + 1#16, tmr := 0 }
    | [] => if s.elapsed s.par.rxTimeout then exit else s

/-- w <- TxWrite(BUF, n); R.WCOUNT <- w (R96): at once with 0 for n = 0; else it offers the bytes (TXPEND <- 1), holds
while TXPEND = 1, and resumes with the answered count. What is offered is `primAt`'s buffer (log 9). -/
def State.txWrite (s : State) (n : Nat) (next : Label) : State :=
  if n = 0 then ({ s with wcount := 0 } : State).goto next
  else if s.txpend then s
  else
    match s.txAns with
    | some w => ({ s with wcount := w, txAns := none } : State).goto next
    | none => { s with txpend := true }

/-- Pins(mc) (R101): both outputs in one step. -/
def State.pins (s : State) (mc : BitVec 2) : State := { s with m0 := mc.extractLsb' 0 1, m1 := mc.extractLsb' 1 1 }

/-- BaudReq(rate); R.CUR_BAUD <- rate (R100, R184). -/
def State.baudReq (s : State) (rate : Word) : State := { s with baudlog := s.baudlog ++ [rate], curBaud := rate }

/-- call SET_MODE(mc), returning to `next` (R13, R51). -/
def State.callSetMode (s : State) (mc : BitVec 2) (next : Label) : State :=
  ({ s with ret := some next, smt := mc } : State).goto .sm1

/-- stageFrame(c) (R210). -/
def State.stageFrame (s : State) (c : Byte) : State :=
  { s with mem := s.mem.writeBytes frameBase (c :: Config.cfgStartAddr :: 0x06#8 :: s.img.body) }

/-- setReg(rid, FRAME[3 + rid]) for rid in 0..5 (R211, RP6). -/
def State.unpackFrame (s : State) : State :=
  { s with img := s.img.unpackBody fun r => s.mem.read (frameBase + 3 + r.id.toNat) }

/-- Whether the block has an enabled step at UPC (R14, R21, R187 to R190, R96, R99): an idle block has none, and a
step that runs no waiting primitive is always enabled (R102). -/
def State.blockEnabled (s : State) : Bool :=
  match s.primAt s.upc with
  | none => s.upc ≠ .idle
  | some (.delay t) => s.elapsed t
  | some (.waitRx t) => s.rxq ≠ [] || s.elapsed t
  | some .drain => true
  | some .busyWait =>
    if s.par.hasAux then s.aux = s.par.auxReadyLevel || s.elapsed s.par.tAuxTo else s.elapsed s.par.tBlind
  | some (.rxRead _ n) => s.got.toNat = n || s.rxq ≠ [] || s.elapsed s.par.rxTimeout
  | some (.txWrite _ n) => n = 0 || !s.txpend

end Sys2Proof.Machine
end

