-- ==== Sys2Proof/Machine/Bus.lean ====
section
/-! DEFINITION. The host side: the register map (20_memory.md R80 to R87), command acceptance (60_exceptions.md R251,
R253), the busy refusal (R84, R254) and reset (70_reset_and_hazards.md R280 to R282). -/

namespace Sys2Proof

open Sys2Proof.Machine in
/-- The first step of a command's micro-program (R181, R161 to R164, R211, R213, R214, R231 to R233). -/
def Instr.firstLabel : Instr → Label
  | .setMode _ => .sm1
  | .setField _ _ => .sf1
  | .getField _ => .gf1
  | .loadReg _ _ => .lr1
  | .noiseDbm _ => .nd1
  | .readParams => .rp1
  | .saveParams _ => .sp1
  | .setCryptKey _ => .ck1
  | .send _ => .ds1
  | .receive _ => .dr1
  | .queryRssi => .qr1

end Sys2Proof

namespace Sys2Proof.Machine

/-- The clears and the latch of an acceptance, before the word is judged (R251). -/
def State.latch (s : State) (v : Word) : State :=
  { s with cmdlat := v, busy := true, done := false, ok := false, err := 0, auxTo := false, drainTo := false,
           wcount := 0, rcount := 0 }

/-- Start a legal command in the acceptance step: SET_MODE loads SMT and clears RET (R251). -/
def State.start (s : State) (i : Instr) : State :=
  match i with
  | .setMode mc => ({ s with smt := mc, ret := none } : State).goto .sm1
  | i => s.goto i.firstLabel

/-- Acceptance of a command word (R251): an illegal word completes in the same step with ERR = ILLEGAL (R253). -/
def State.accept (s : State) (v : Word) : State :=
  match decode s.par.payloadMax v with
  | .ok i => (s.latch v).start i
  | .error _ => (s.latch v).raise .illegal

/-- The busy refusal (R254). -/
def State.refuse (s : State) : State := { s with overrun := true }

/-- The aligned word address of an access: a & 0xFFC (R82). -/
def wordAddr (a : Addr) : Nat := (a &&& 0xFFC#12).toNat

/-- The PAYLOAD window: words 0x100 to 0x100 + 4*ceil(PAYLOAD_MAX/4) - 4 (R85). -/
def inPayloadWindow (payloadMax w : Nat) : Bool :=
  payloadBase ≤ w && w < payloadBase + 4 * ((payloadMax + 3) / 4)

/-- A byte lane of a buffer window; a lane that is no buffer byte reads 0 (R83, R86). -/
def State.lane (s : State) (a : Nat) : Byte :=
  if isBufferByte s.par.payloadMax a then s.mem.read a else 0#8

/-- The word of four byte lanes, lowest address in bits 7:0 (R87). -/
def State.laneWord (s : State) (w : Nat) : Word :=
  (s.lane (w + 3) ++ s.lane (w + 2) ++ s.lane (w + 1) ++ s.lane w : BitVec 32)

/-- PINS (R44): AUX_IN is sampled at the read, and reads 0 where there is no AUX (R36). -/
def State.pinsWord (s : State) : Word :=
  (0#28 ++ bit s.par.hasAux ++ (if s.par.hasAux then s.aux else 0#1) ++ s.m1 ++ s.m0 : BitVec 32)

/-- SAMPLES (R42). -/
def State.samplesWord (s : State) : Word := (0#8 ++ s.lastRssi ++ s.noise ++ s.rssiRx : BitVec 32)

/-- XFER (R43). -/
def State.xferWord (s : State) : Word := (s.rcount ++ s.wcount : BitVec 32)

/-- IMAGE0 (R45). -/
def State.image0 (s : State) : Word := (s.img.pack1 ++ s.img.pack0 ++ s.img.addl ++ s.img.addh : BitVec 32)

/-- IMAGE1 (R45). -/
def State.image1 (s : State) : Word := (s.img.addr ++ s.img.pack3 ++ s.img.channel : BitVec 32)

/-- MemRead(a, 4) (R81, R85): CMD reads 0, an unmapped word reads 0 (R83). -/
def State.hostRead (s : State) (a : Addr) : Word :=
  match wordAddr a with
  | 0x000 => 0#32
  | 0x004 => s.statusWord
  | 0x008 => s.result
  | 0x00C => (0#31 ++ bit s.autobaudEn : BitVec 32)
  | 0x010 => s.curBaud
  | 0x014 => s.samplesWord
  | 0x018 => s.xferWord
  | 0x01C => s.pinsWord
  | 0x020 => s.image0
  | 0x024 => s.image1
  | w => s.laneWord w

/-- Byte lane `j` of a bus word (R87). -/
def laneOf (v : Word) (j : Nat) : Byte := v.extractLsb' (8 * j) 8

/-- A PAYLOAD byte write; lanes past PAYLOAD_MAX - 1 ignore it (R86). -/
def State.writePayloadByte (s : State) (a : Nat) (b : Byte) : State :=
  if isPayloadByte s.par.payloadMax a then { s with mem := s.mem.write a b } else s

/-- A PAYLOAD word write: its four lanes (R86). -/
def State.writePayloadWord (s : State) (w : Nat) (v : Word) : State :=
  ((((s.writePayloadByte w (laneOf v 0)).writePayloadByte (w + 1) (laneOf v 1)).writePayloadByte (w + 2)
    (laneOf v 2)).writePayloadByte (w + 3) (laneOf v 3))

/-- A write to a target that is refused while BUSY = 1 (R84, R254). -/
def State.unlessBusy (s : State) (s' : State) : State := if s.busy then s.refuse else s'

/-- MemWrite(a, 4, v) (R81, R85): a write to a read-only or unmapped word has no effect (R83). -/
def State.hostWrite (s : State) (a : Addr) (v : Word) : State :=
  match wordAddr a with
  | 0x000 => s.unlessBusy (s.accept v)
  | 0x004 => if v.getLsbD 3 then { s with overrun := false } else s
  | 0x00C => s.unlessBusy { s with autobaudEn := v.getLsbD 0 }
  | 0x010 => s.unlessBusy { s with curBaud := v }
  | w => if inPayloadWindow s.par.payloadMax w then s.unlessBusy (s.writePayloadWord w v) else s

/-- One host access; what a read returns is kept in busReads (log 14). -/
def State.access (s : State) : Access → State
  | .read a => { s with busReads := s.busReads ++ [(a, s.hostRead a)] }
  | .write a v => s.hostWrite a v

/-- The host address of CMD (R85). -/
def addrCmd : Addr := 0x000#12

/-- The host address of STATUS (R85). -/
def addrStatus : Addr := 0x004#12

/-- The next access of the host program (R146, R147): WAITDONE reads STATUS and is done where BUSY = 0. -/
def State.progStep (s : State) : State :=
  match s.prog with
  | [] => s
  | .access x :: rest => ({ s with prog := rest } : State).access x
  | .waitDone :: rest => ({ s with prog := if s.busy then .waitDone :: rest else rest } : State).access (.read addrStatus)

/-- Reset (R280, R281, R282): every piece of block state takes its reset value in one step, the unspecified ones
the draw. It reaches neither the environment (RXQ, AUX, the logs) nor the parameters nor the model's own
bookkeeping (log 6, log 16); a pending or answered TxWrite is withdrawn (log 9). -/
def State.resetBlock (s : State) (d : ResetDraw) : State :=
  { s with
    img := d.img
    m0 := 0
    m1 := 0
    lastMode := 7
    autobaudEn := false
    curBaud := s.par.initBaud
    busy := false
    done := false
    ok := false
    overrun := false
    err := 0
    auxTo := false
    drainTo := false
    rssiValid := false
    result := 0
    rssiRx := 0
    noise := 0
    lastRssi := 0
    wcount := 0
    rcount := 0
    mem := Memory.ofDraw s.par.payloadMax d.cells
    cmdlat := 0
    upc := .idle
    ret := none
    smt := 0
    tmr := 0
    got := 0
    txpend := false
    wto := false
    txAns := none }

end Sys2Proof.Machine
end

