-- ==== Sys2Proof/Machine/CodecCommands.lean ====
section
/-! DEFINITION. The four codec commands (40_codec.md R161 to R164): one-step micro-programs. -/

namespace Sys2Proof.Machine

/-- SET_FIELD fid, v (R161), at SF1. -/
def execSetField (f : Field) (v : BitVec 16) (s : State) : Host.Outcome State Fault Refusal :=
  match s.upc with
  | .sf1 => .next ({ s with img := s.img.setField f v } : State).succeed
  | _ => .fault .labelOutsideProgram

/-- GET_FIELD fid (R162), at GF1. -/
def execGetField (f : Field) (s : State) : Host.Outcome State Fault Refusal :=
  match s.upc with
  | .gf1 => .next ({ s with result := s.img.field f } : State).succeed
  | _ => .fault .labelOutsideProgram

/-- LOAD_REG rid, b (R163), at LR1. -/
def execLoadReg (r : Reg) (b : Byte) (s : State) : Host.Outcome State Fault Refusal :=
  match s.upc with
  | .lr1 => .next ({ s with img := s.img.setReg r b } : State).succeed
  | _ => .fault .labelOutsideProgram

/-- NOISE_DBM raw (R164), at ND1. -/
def execNoiseDbm (raw : BitVec 9) (s : State) : Host.Outcome State Fault Refusal :=
  match s.upc with
  | .nd1 => .next ({ s with result := noiseDbmOf raw } : State).succeed
  | _ => .fault .labelOutsideProgram

end Sys2Proof.Machine
end

