-- ==== Sys2Proof/Machine/SetMode.lean ====
section
/-! DEFINITION. The mode-select FSM (41_mode_fsm.md R181 to R185): the micro-program SM1 to SM8 that the SET_MODE
command runs and every configuration command calls. -/

namespace Sys2Proof.Machine

/-- SM3: entering PROGRAM with auto-baud on and a configured rate other than PROG_BAUD requests PROG_BAUD (R184). -/
def State.switchToProgBaud (s : State) : State :=
  if s.smt = 3#2 ∧ s.autobaudEn = true ∧ s.configuredBaud ≠ Config.progBaud then s.baudReq Config.progBaud else s

/-- SM4: entering another mode with auto-baud on and CUR_BAUD other than the configured rate restores it (R184). -/
def State.restoreBaud (s : State) : State :=
  if s.smt ≠ 3#2 ∧ s.autobaudEn = true ∧ s.curBaud ≠ s.configuredBaud then s.baudReq s.configuredBaud else s

/-- SM8: record the mode; complete at top level, else return to the caller's step (R51, R185). -/
def State.recordMode (s : State) : State :=
  let s' := { s with lastMode := s.smt.setWidth 3 }
  match s.ret with
  | none => s'.succeed
  | some l => ({ s' with ret := none } : State).goto l

/-- The micro-step of SET_MODE at UPC (R181); a label outside SM1 to SM8 belongs to no step of it (log 11). -/
def State.setModeStep (s : State) : Host.Outcome State Fault Refusal :=
  match s.upc with
  | .sm1 => .next (s.delay s.par.tPre .sm2)
  | .sm2 => .next ((s.pins s.smt).goto .sm3)
  | .sm3 => .next (s.switchToProgBaud.goto .sm4)
  | .sm4 => .next (s.restoreBaud.goto .sm5)
  | .sm5 => .next (s.delay s.par.tPost .sm6)
  | .sm6 => .next (s.drain .sm7)
  | .sm7 => .next (s.busyWait .sm8)
  | .sm8 => .next s.recordMode
  | _ => .fault .labelOutsideProgram

/-- SET_MODE mc (R181). Its micro-steps read the mode code from SMT, which acceptance loads with mc (R251). -/
def execSetMode (_mc : BitVec 2) (s : State) : Host.Outcome State Fault Refusal := s.setModeStep

end Sys2Proof.Machine
end

