-- ==== Sys2Proof/Machine/ConfigSession.lean ====
section
/-! DEFINITION. The configuration session commands (42_config_session.md R211 to R214). A label that is none of the
command's own is a step of the SET_MODE it calls. -/

namespace Sys2Proof.Machine

/-- READ_PARAMS (R211, R212). -/
def execReadParams (s : State) : Host.Outcome State Fault Refusal :=
  match s.upc with
  | .rp1 => .next ((s.stageFrame 0xC1#8).goto .rp2)
  | .rp2 => .next (s.callSetMode 3#2 .rp3)
  | .rp3 => .next (s.txWrite 3 .rp4)
  | .rp4 => .next (s.delay s.par.tRdSettle .rp5)
  | .rp5 => .next (s.rxRead frameBase 9 .rp6)
  | .rp6 => .next (s.unpackFrame.goto .rp7)
  | .rp7 => .next (s.callSetMode 0#2 .rp8)
  | .rp8 =>
    .next (if s.rcount.toNat < 9 then s.raise .shortIo
      else if s.mem.read frameBase ≠ 0xC1#8 then s.raise .echoMismatch
      else s.succeed)
  | _ => s.setModeStep

/-- SAVE_PARAMS p (R213). -/
def execSaveParams (p : Persistence) (s : State) : Host.Outcome State Fault Refusal :=
  match s.upc with
  | .sp1 => .next ((s.stageFrame p.command).goto .sp2)
  | .sp2 => .next (s.callSetMode 3#2 .sp3)
  | .sp3 => .next (s.delay s.par.tSavePre .sp4)
  | .sp4 => .next (s.txWrite 9 .sp5)
  | .sp5 => .next (s.waitRx Config.tSaveResp fun _ => s.goto .sp6)
  | .sp6 => .next (s.rxRead frameBase 9 .sp7)
  | .sp7 => .next (s.callSetMode 0#2 .sp8)
  | .sp8 => .next (if s.wcount ≠ 9#16 ∨ s.rcount ≠ 9#16 then s.raise .shortIo else s.succeed)
  | _ => s.setModeStep

/-- The crypt-set command [0xC0, 0x06, 0x02, key_high, key_low] (R143). -/
def cryptCommand (key : BitVec 16) : List Byte :=
  [0xC0#8, 0x06#8, 0x02#8, key.extractLsb' 8 8, key.extractLsb' 0 8]

/-- SET_CRYPT_KEY key (R214). -/
def execSetCryptKey (key : BitVec 16) (s : State) : Host.Outcome State Fault Refusal :=
  match s.upc with
  | .ck1 => .next (({ s with mem := s.mem.writeBytes xbufBase (cryptCommand key) } : State).goto .ck2)
  | .ck2 => .next (s.callSetMode 3#2 .ck3)
  | .ck3 => .next (s.delay s.par.tSavePre .ck4)
  | .ck4 => .next (s.txWrite 5 .ck5)
  | .ck5 => .next (s.rxRead rbufBase 5 .ck6)
  | .ck6 => .next (s.callSetMode 0#2 .ck7)
  | .ck7 => .next (if s.wcount ≠ 5#16 ∨ s.rcount ≠ 5#16 then s.raise .shortIo else s.succeed)
  | _ => s.setModeStep

end Sys2Proof.Machine
end

