-- ==== Sys2Proof/Machine/DataSession.lean ====
section
/-! DEFINITION. The data session commands (43_data_session.md R230 to R233). None changes the mode. -/

namespace Sys2Proof.Machine

/-- SEND n (R231). -/
def execSend (n : BitVec 16) (s : State) : Host.Outcome State Fault Refusal :=
  match s.upc with
  | .ds1 => .next (s.txWrite n.toNat .ds2)
  | .ds2 => .next (s.busyWait .ds3)
  | .ds3 => .next (if s.wcount ≠ n then s.raise .shortIo else s.succeed)
  | _ => .fault .labelOutsideProgram

/-- DR3: the RSSI poll where F.RSSI_BYTE_EN = 1, else WTO <- 1 without a wait (R232). -/
def State.rssiPoll (s : State) (next : Label) : State :=
  if s.img.rssiByteEn = 1#1 then
    s.waitRx Config.tRssiPoll fun timedOut => ({ s with wto := timedOut } : State).goto next
  else ({ s with wto := true } : State).goto next

/-- DR4: RSSI_RX <- RxPop(); RSSI_VALID <- 1 where the poll found a byte (R232). The pop of an empty queue, which
R98 forbids, is a stop of the model's own (log 12). -/
def State.rssiTake (s : State) (next : Label) : Host.Outcome State Fault Refusal :=
  if s.img.rssiByteEn = 1#1 ∧ s.wto = false then
    match s.rxq with
    | b :: q => .next (({ s with rxq := q, rssiRx := b, rssiValid := true } : State).goto next)
    | [] => .fault .popOfEmptyQueue
  else .next (s.goto next)

/-- RECEIVE n (R232). -/
def execReceive (n : BitVec 16) (s : State) : Host.Outcome State Fault Refusal :=
  match s.upc with
  | .dr1 => .next (({ s with rssiValid := false } : State).goto .dr2)
  | .dr2 => .next (s.rxRead payloadBase n.toNat .dr3)
  | .dr3 => .next (s.rssiPoll .dr4)
  | .dr4 => s.rssiTake .dr5
  | .dr5 => .next (s.busyWait .dr6)
  | .dr6 => .next (if s.rcount ≠ n then s.raise .shortIo else s.succeed)
  | _ => .fault .labelOutsideProgram

/-- The RSSI-query command (R144). -/
def rssiQueryCommand : List Byte := [0xC0#8, 0xC1#8, 0xC2#8, 0xC3#8, 0x00#8, 0x02#8]

/-- QUERY_RSSI (R233): noise sample at reply offset 3, last-receive sample at offset 4 (R144). -/
def execQueryRssi (s : State) : Host.Outcome State Fault Refusal :=
  match s.upc with
  | .qr1 => .next (if s.img.ambNoiseEn = 0#1 ∨ s.lastMode ≠ 0#3 then s.raise .precondition else s.goto .qr2)
  | .qr2 => .next (({ s with mem := s.mem.writeBytes xbufBase rssiQueryCommand } : State).goto .qr3)
  | .qr3 => .next (s.txWrite 6 .qr4)
  | .qr4 => .next (s.delay s.par.tQrssi .qr5)
  | .qr5 => .next (s.rxRead rbufBase 5 .qr6)
  | .qr6 =>
    .next (if s.rcount ≠ 5#16 then s.raise .shortIo
      else ({ s with noise := s.mem.read (rbufBase + 3), lastRssi := s.mem.read (rbufBase + 4) } : State).succeed)
  | _ => .fault .labelOutsideProgram

end Sys2Proof.Machine
end

