-- ==== Sys2Proof/Machine/Dispatch.lean ====
section
/-! DEFINITION. The block's micro-step of a command at UPC (00_scope.md R14, 10_state.md R51): one arm per command. -/

namespace Sys2Proof.Machine

def exec (i : Instr) (s : State) : Host.Outcome State Fault Refusal :=
  match i with
  | .setMode mc => Sys2Proof.Machine.execSetMode mc s
  | .setField f v => Sys2Proof.Machine.execSetField f v s
  | .getField f => Sys2Proof.Machine.execGetField f s
  | .loadReg r b => Sys2Proof.Machine.execLoadReg r b s
  | .noiseDbm raw => Sys2Proof.Machine.execNoiseDbm raw s
  | .readParams => Sys2Proof.Machine.execReadParams s
  | .saveParams p => Sys2Proof.Machine.execSaveParams p s
  | .setCryptKey key => Sys2Proof.Machine.execSetCryptKey key s
  | .send n => Sys2Proof.Machine.execSend n s
  | .receive n => Sys2Proof.Machine.execReceive n s
  | .queryRssi => Sys2Proof.Machine.execQueryRssi s

end Sys2Proof.Machine
end

