-- ==== Sys2Proof/Machine/Agents.lean ====
section
/-! DEFINITION. One step of one agent (00_scope.md R20 to R24): the block, the clock and the environment beside the
host of Bus.lean, and the default schedule. -/

namespace Sys2Proof.Machine

/-- The block's step (R14, R20): it runs the micro-step of the command latched in CMDLAT, or nothing when idle. -/
def State.blockStep (s : State) : Host.Outcome State Fault Refusal :=
  if s.upc = .idle then .next s
  else
    match decode s.par.payloadMax s.cmdlat with
    | .ok i => exec i s
    | .error _ => .fault .latchIllegal

/-- A tick (R22, R186): TMR <- min(TMR + 1, 2^32 - 1) while UPC is at a step running a timed primitive; nothing
else. -/
def State.tick (s : State) : State :=
  if s.timedAt s.upc then { s with tmr := if s.tmr = BitVec.allOnes 32 then s.tmr else s.tmr + 1#32 } else s

/-- The size of the TxWrite the block waits in, and the bytes it offers, where TXPEND = 1 (R96). -/
def State.offered (s : State) : Option (Nat × Nat) :=
  if s.txpend then
    match s.primAt s.upc with
    | some (.txWrite base n) => some (base, n)
    | _ => none
  else none

/-- The environment's answer to a pending TxWrite (R96): the first w bytes enter TXLOG, each with the mode code on
the pins. An answer that is not enabled (no pending write, or w > n) changes nothing (log 2). -/
def State.txAnswer (s : State) (w : BitVec 16) : State :=
  match s.offered with
  | some (base, n) =>
    if w.toNat ≤ n then
      { s with txlog := s.txlog ++ (s.mem.bytes base w.toNat).map (fun b => (b, s.modeCode))
               txpend := false
               txAns := some w }
    else s
  | none => s

/-- The environment consumes one baud request, if one is left (R20, R100; log 10). -/
def State.takeBaud (s : State) : State :=
  if s.baudTaken < s.baudlog.length then { s with baudTaken := s.baudTaken + 1 } else s

/-- One move of the agenda. A move that is not enabled changes nothing (log 2). -/
def State.perform (s : State) : Move → Host.Outcome State Fault Refusal
  | .access x => .next (s.access x)
  | .prog => .next s.progStep
  | .reset d => .next (s.resetBlock d)
  | .block => s.blockStep
  | .tick => .next s.tick
  | .rxByte b => .next { s with rxq := s.rxq ++ [b] }
  | .auxLevel l => .next { s with aux := l }
  | .txAnswer w => .next (s.txAnswer w)
  | .takeBaud => .next s.takeBaud

/-- The count the environment answers with under the default schedule: a free value, bounded by n (R96; log 8). -/
def State.freeAnswer (s : State) : BitVec 16 :=
  match s.offered with
  | some (_, n) => if (Config.freeCount s.draws).toNat ≤ n then Config.freeCount s.draws else BitVec.ofNat 16 n
  | none => 0#16

/-- Whether the host program has an access to make that is not one more poll of a busy STATUS. -/
def State.progReady (s : State) : Bool :=
  match s.prog with
  | [] => false
  | .access _ :: _ => true
  | .waitDone :: _ => !s.busy

/-- The default schedule, where nothing is decided (log 1): the block if it has an enabled step (R21 a); else the
answer of a pending TxWrite (R23); else the host program; else a tick (R21 b). -/
def State.autoStep (s : State) : Host.Outcome State Fault Refusal :=
  if s.blockEnabled then s.blockStep
  else if s.txpend then .next { s.txAnswer s.freeAnswer with draws := s.draws + 1 }
  else if s.progReady then .next s.progStep
  else .next s.tick

/-- Load a command word as if it had just been accepted by an idle block, with the block's step next (log 14). -/
def State.loadCommand (s : State) (v : Word) : State :=
  let idle : State := { s with upc := .idle, ret := none, txpend := false, txAns := none }
  { idle.accept v with agenda := .block :: s.agenda }

end Sys2Proof.Machine
end

