-- ==== Sys2Proof/Machine/Step.lean ====
section
/-! DEFINITION. One step of the machine: the next move of the agenda, or the default schedule. -/

namespace Sys2Proof.Machine

/-- One step of one agent (R20, R21, R91; log 1). -/
def step (s : State) : Host.Outcome State Fault Refusal :=
  match s.agenda with
  | m :: rest => ({ s with agenda := rest } : State).perform m
  | [] => s.autoStep

/-- `s` with the command word `w` accepted and the block's step next: the block fetches its command from CMDLAT,
which acceptance loads (R94, R251; log 14). -/
def State.withFetchWord (s : State) (nbits w : Nat) : State :=
  s.loadCommand (BitVec.ofNat 32 (w % 2 ^ nbits))

end Sys2Proof.Machine
end

