-- ==== Sys2Proof/Machine/Program.lean ====
section
/-! DEFINITION. Command syntax, host-program lines and pseudo-instructions (30_encoding.md R146, R147): text to
commands and to the host program that State.prog holds. Case and spelling are the spec's. -/

namespace Sys2Proof.Machine

/-- The host registers of R85 that a host line names. -/
inductive BusReg where
  | cmd | status | result | ctrl | curBaud | samples | xfer | pins | image0 | image1
  deriving DecidableEq, Repr

/-- addr(reg) (R85). -/
def BusReg.addr : BusReg → Addr
  | .cmd => 0x000#12
  | .status => 0x004#12
  | .result => 0x008#12
  | .ctrl => 0x00C#12
  | .curBaud => 0x010#12
  | .samples => 0x014#12
  | .xfer => 0x018#12
  | .pins => 0x01C#12
  | .image0 => 0x020#12
  | .image1 => 0x024#12

/-- WR <reg>, <value> (R146). -/
def HostLine.wr (r : BusReg) (v : Word) : HostLine := .access (.write r.addr v)

/-- RD <reg> (R146). -/
def HostLine.rd (r : BusReg) : HostLine := .access (.read r.addr)

/-- EXEC <cmd> = WR CMD, enc(<cmd>) followed by WAITDONE (R147). -/
def execLines (i : Instr) : List HostLine := [HostLine.wr .cmd (encode i), .waitDone]

/-- SET_MODE DEEP_SLEEP = SET_MODE PROGRAM (R147, R191). -/
def pseudoDeepSleep : Instr := .setMode 3#2

/-- SAVE_PERM (R147). -/
def pseudoSavePerm : Instr := .saveParams .permanent

/-- SAVE_TEMP (R147). -/
def pseudoSaveTemp : Instr := .saveParams .temporary

/-- SET_ADDR a16: two commands, each of which needs WAITDONE (R147). -/
def pseudoSetAddr (a16 : BitVec 16) : List Instr :=
  [.setField .addh ((a16.extractLsb' 8 8).setWidth 16), .setField .addl ((a16.extractLsb' 0 8).setWidth 16)]

/-- The value of a hexadecimal digit. -/
def hexDigit (c : Char) : Option Nat :=
  if '0' ≤ c ∧ c ≤ '9' then some (c.toNat - '0'.toNat)
  else if 'a' ≤ c ∧ c ≤ 'f' then some (c.toNat - 'a'.toNat + 10)
  else if 'A' ≤ c ∧ c ≤ 'F' then some (c.toNat - 'A'.toNat + 10)
  else none

/-- Digits in a base, most significant first, onto what has been read. -/
def digits (base acc : Nat) : List Char → Option Nat
  | [] => some acc
  | c :: cs =>
    match hexDigit c with
    | some d => if d < base then digits base (base * acc + d) cs else none
    | none => none

/-- A number: decimal, or hexadecimal with 0x (R146). -/
def number : List Char → Option Nat
  | [] => none
  | '0' :: 'x' :: [] => none
  | '0' :: 'x' :: cs => digits 16 0 cs
  | cs => digits 10 0 cs

/-- A number below 2^w. -/
def numberOf (w : Nat) (cs : List Char) : Option (BitVec w) :=
  match number cs with
  | some n => if n < 2 ^ w then some (BitVec.ofNat w n) else none
  | none => none

/-- Look a name up in a table. -/
def named {α : Type} (cs : List Char) : List (String × α) → Option α
  | [] => none
  | (s, a) :: rest => if s.toList = cs then some a else named cs rest

/-- <mode>: a name or 0 to 3 (R146). -/
def modeOperand (cs : List Char) : Option (BitVec 2) :=
  match named cs [("NORMAL", 0#2), ("WOR_TRANSMIT", 1#2), ("WOR_RECEIVE", 2#2), ("PROGRAM", 3#2),
    ("DEEP_SLEEP", 3#2)] with
  | some mc => some mc
  | none => numberOf 2 cs

/-- <field>: a name or a fid of R125 (R146). -/
def fieldOperand (cs : List Char) : Option Field :=
  match named cs [("UART", Field.uart), ("PARITY", .parity), ("AIR_RATE", .airRate), ("SUB_PACKET", .subPacket),
    ("AMB_NOISE_EN", .ambNoiseEn), ("REG1_RSV", .reg1Rsv), ("TX_POWER", .txPower),
    ("RSSI_BYTE_EN", .rssiByteEn), ("TX_MODE", .txMode), ("REG3_RSV5", .reg3Rsv5), ("LBT_EN", .lbtEn),
    ("REG3_RSV3", .reg3Rsv3), ("WOR_TIMING", .worTiming), ("ADDH", .addh), ("ADDL", .addl),
    ("CHANNEL", .channel)] with
  | some f => some f
  | none => (numberOf 4 cs).map Field.ofId

/-- <reg> of LOAD_REG (R146). -/
def regOperand (cs : List Char) : Option Reg :=
  named cs [("ADDH", Reg.addh), ("ADDL", .addl), ("REG0", .reg0), ("REG1", .reg1), ("CHANNEL", .channel),
    ("REG3", .reg3)]

/-- <reg> of WR and RD (R146). -/
def busRegOperand (cs : List Char) : Option BusReg :=
  named cs [("CMD", BusReg.cmd), ("STATUS", .status), ("RESULT", .result), ("CTRL", .ctrl),
    ("CUR_BAUD", .curBaud), ("SAMPLES", .samples), ("XFER", .xfer), ("PINS", .pins), ("IMAGE0", .image0),
    ("IMAGE1", .image1)]

/-- The text before the first occurrence of a character, and the text after it. -/
def cutAt (sep : Char) : List Char → List Char × List Char
  | [] => ([], [])
  | c :: cs => if c = sep then ([], cs) else (c :: (cutAt sep cs).1, (cutAt sep cs).2)

/-- A line's first word, and what follows it. -/
def headWord (line : List Char) : List Char × List Char := cutAt ' ' line

/-- A host byte address, if there is such (R80). -/
def hostAddr (a : Nat) : Option Addr := if a < 2 ^ 12 then some (BitVec.ofNat 12 a) else none

/-- A buffer byte as 95_test_vectors.md writes it, such as PAYLOAD[0]: the word that holds the byte is accessed, since
address bits 1:0 are ignored (R82, R86; log 17). -/
def bufferOperand (cs : List Char) : Option Addr :=
  match (cutAt '[' cs).2.reverse with
  | ']' :: index =>
    (named (cutAt '[' cs).1 [("FRAME", frameBase), ("XBUF", xbufBase), ("RBUF", rbufBase),
      ("PAYLOAD", payloadBase)]).bind fun base => (number index.reverse).bind fun i => hostAddr (base + i)
  | _ => none

/-- Text split at its commas. -/
def splitCommas : List Char → List (List Char)
  | [] => [[]]
  | ',' :: cs => [] :: splitCommas cs
  | c :: cs =>
    match splitCommas cs with
    | p :: ps => (c :: p) :: ps
    | [] => [[c]]

/-- The operands of a line: separated by commas, spaces dropped (R146). -/
def operandsOf (cs : List Char) : List (List Char) :=
  match cs.filter (· ≠ ' ') with
  | [] => []
  | ds => splitCommas ds

/-- A command of R146 from its mnemonic and operands. -/
def commandOf (mnemonic : List Char) (ops : List (List Char)) : Option Instr :=
  if mnemonic = "SET_MODE".toList then
    match ops with
    | [m] => (modeOperand m).map .setMode
    | _ => none
  else if mnemonic = "SET_FIELD".toList then
    match ops with
    | [f, v] => (fieldOperand f).bind fun f => (numberOf 16 v).map (.setField f)
    | _ => none
  else if mnemonic = "GET_FIELD".toList then
    match ops with
    | [f] => (fieldOperand f).map .getField
    | _ => none
  else if mnemonic = "LOAD_REG".toList then
    match ops with
    | [r, b] => (regOperand r).bind fun r => (numberOf 8 b).map (.loadReg r)
    | _ => none
  else if mnemonic = "NOISE_DBM".toList then
    match ops with
    | [raw] => (numberOf 9 raw).map .noiseDbm
    | _ => none
  else if mnemonic = "READ_PARAMS".toList then
    match ops with
    | [] => some .readParams
    | _ => none
  else if mnemonic = "SAVE_PARAMS".toList then
    match ops with
    | [p] => (named p [("PERMANENT", Persistence.permanent), ("TEMPORARY", .temporary)]).map .saveParams
    | _ => none
  else if mnemonic = "SET_CRYPT_KEY".toList then
    match ops with
    | [key] => (numberOf 16 key).map .setCryptKey
    | _ => none
  else if mnemonic = "SEND".toList then
    match ops with
    | [n] => (numberOf 16 n).map .send
    | _ => none
  else if mnemonic = "RECEIVE".toList then
    match ops with
    | [n] => (numberOf 16 n).map .receive
    | _ => none
  else if mnemonic = "QUERY_RSSI".toList then
    match ops with
    | [] => some .queryRssi
    | _ => none
  else none

/-- A command line, pseudo-instructions expanded (R146, R147). -/
def assemble (line : List Char) : Option (List Instr) :=
  let mnemonic := (headWord line).1
  let ops := operandsOf (headWord line).2
  if mnemonic = "SAVE_PERM".toList ∧ ops = [] then some [pseudoSavePerm]
  else if mnemonic = "SAVE_TEMP".toList ∧ ops = [] then some [pseudoSaveTemp]
  else if mnemonic = "SET_ADDR".toList then
    match ops with
    | [a] => (numberOf 16 a).map pseudoSetAddr
    | _ => none
  else (commandOf mnemonic ops).map ([·])

/-- A host-program line, EXEC expanded (R146, R147). -/
def hostLines (line : List Char) : Option (List HostLine) :=
  let word := (headWord line).1
  let ops := operandsOf (headWord line).2
  if word = "EXEC".toList then (assemble (headWord line).2).map fun is => is.flatMap execLines
  else if word = "WAITDONE".toList ∧ ops = [] then some [.waitDone]
  else if word = "WR".toList then
    match ops with
    | [r, v] => (busRegOperand r).bind fun r => (numberOf 32 v).map fun v => [HostLine.wr r v]
    | _ => none
  else if word = "RD".toList then
    match ops with
    | [r] =>
      match busRegOperand r with
      | some r => some [HostLine.rd r]
      | none => (bufferOperand r).map fun a => [.access (.read a)]
    | _ => none
  else if word = "WRP".toList then
    match ops with
    | [i, v] => (number i).bind fun i => (numberOf 32 v).bind fun v =>
        (hostAddr (payloadBase + 4 * i)).map fun a => [.access (.write a v)]
    | _ => none
  else none

end Sys2Proof.Machine
end

