-- ==== Sys2Proof/Safety.lean ====
section
/-! DEFINITION. What a good state is: the invariants the spec states of the block (41_mode_fsm.md R192, 42 R215,
60_exceptions.md R250, 10_state.md R37, R51) and those its micro-programs rest on. State.reset
meets them and every step keeps them, so they rule out only states that no run reaches. -/

namespace Sys2Proof.Machine

/-- The steps of SET_MODE. -/
def Label.isSetMode : Label → Bool
  | .sm1 | .sm2 | .sm3 | .sm4 | .sm5 | .sm6 | .sm7 | .sm8 => true
  | _ => false

/-- The steps of SET_MODE after its pin change (R192 c). -/
def Label.afterPins : Label → Bool
  | .sm3 | .sm4 | .sm5 | .sm6 | .sm7 | .sm8 => true
  | _ => false

end Sys2Proof.Machine

namespace Sys2Proof

open Sys2Proof.Machine in
/-- A command's own steps, the SET_MODE it calls left aside. -/
def Instr.owns : Instr → Label → Bool
  | .setMode _, l => l.isSetMode
  | .setField _ _, l => l = .sf1
  | .getField _, l => l = .gf1
  | .loadReg _ _, l => l = .lr1
  | .noiseDbm _, l => l = .nd1
  | .readParams, l => l ∈ [.rp1, .rp2, .rp3, .rp4, .rp5, .rp6, .rp7, .rp8]
  | .saveParams _, l => l ∈ [.sp1, .sp2, .sp3, .sp4, .sp5, .sp6, .sp7, .sp8]
  | .setCryptKey _, l => l ∈ [.ck1, .ck2, .ck3, .ck4, .ck5, .ck6, .ck7]
  | .send _, l => l ∈ [.ds1, .ds2, .ds3]
  | .receive _, l => l ∈ [.dr1, .dr2, .dr3, .dr4, .dr5, .dr6]
  | .queryRssi, l => l ∈ [.qr1, .qr2, .qr3, .qr4, .qr5, .qr6]

open Sys2Proof.Machine in
/-- The steps a configuration command returns to from its calls of SET_MODE(3) and SET_MODE(0). -/
def Instr.returns : Instr → Option (Label × Label)
  | .readParams => some (.rp3, .rp8)
  | .saveParams _ => some (.sp3, .sp8)
  | .setCryptKey _ => some (.ck3, .ck7)
  | _ => none

end Sys2Proof

namespace Sys2Proof.Machine

/-- The steps of a configuration command between its two calls of SET_MODE. -/
def Label.inProgram : Label → Bool
  | .rp3 | .rp4 | .rp5 | .rp6 | .rp7 | .sp3 | .sp4 | .sp5 | .sp6 | .sp7 | .ck3 | .ck4 | .ck5 | .ck6 => true
  | _ => false

/-- The last steps of the configuration commands. -/
def Label.afterSession : Label → Bool
  | .rp8 | .sp8 | .ck7 => true
  | _ => false

/-- The steps of QUERY_RSSI behind its precondition (R233). -/
def Label.queryPassed : Label → Bool
  | .qr2 | .qr3 | .qr4 | .qr5 | .qr6 => true
  | _ => false

/-- UPC, RET and SMT are those of command `i` (R51): one of its own steps with RET = NONE, or a step of the SET_MODE it
runs or calls, with the mode code and the return step of that call. -/
def State.Runs (s : State) (i : Instr) : Prop :=
  if s.upc.isSetMode then
    (∃ mc, i = .setMode mc ∧ s.ret = none ∧ s.smt = mc) ∨
      ∃ p, i.returns = some p ∧
        ((s.ret = some p.1 ∧ s.smt = 3#2) ∨ (s.ret = some p.2 ∧ s.smt = 0#2))
  else s.ret = none ∧ i.owns s.upc = true

/-- A command runs exactly while BUSY = 1, and then UPC is in the micro-program of the command latched in CMDLAT
(R40, R51, R251). -/
def State.RunInv (s : State) : Prop :=
  if s.upc = .idle then s.busy = false ∧ s.ret = none
  else s.busy = true ∧ ∃ i, decode s.par.payloadMax s.cmdlat = .ok i ∧ s.Runs i

/-- The flags describe the last completed command (R40, R250): DONE and BUSY are never both 1, OK = 1 exactly where a
completed command has ERR = 0, and codes 5 to 15 are never written. -/
def State.FlagInv (s : State) : Prop :=
  (s.busy = true → s.done = false) ∧ (s.done = false → s.ok = false ∧ s.err = 0) ∧
    (s.done = true → (s.ok = true ↔ s.err = 0)) ∧ s.err.toNat ≤ 4

/-- LAST_MODE is a mode code or UNSET (R37). -/
def State.LastModeLegal (s : State) : Prop := s.lastMode.toNat ≤ 3 ∨ s.lastMode = 7#3

/-- The pins show LAST_MODE, or 00 while it is UNSET, but for SM3 to SM8, where they show the mode being set (R192 c to
e); a configuration command transfers in PROGRAM and judges in NORMAL (R215, R216); QUERY_RSSI transfers behind its
precondition (R233). -/
def State.ModeInv (s : State) : Prop :=
  (if s.upc.afterPins then s.modeCode = s.smt
    else (s.lastMode = 7#3 ∧ s.modeCode = 0#2) ∨ s.lastMode = s.modeCode.setWidth 3) ∧
  (s.upc.inProgram = true → s.lastMode = 3#3) ∧ (s.upc.afterSession = true → s.lastMode = 0#3) ∧
  (s.upc.queryPassed = true → s.lastMode = 0#3 ∧ s.img.ambNoiseEn = 1#1)

/-- A TxWrite waits or is answered only at a step that runs one, never both, and with a count of at most n (R96); an
RxRead has at most n bytes (R99); the pop of DR4 finds a byte (R232); no more baud requests are consumed than made. -/
def State.TransferInv (s : State) : Prop :=
  (s.txpend = true → s.txAns = none ∧ ∃ base n, s.primAt s.upc = some (.txWrite base n) ∧ 0 < n) ∧
  (∀ w, s.txAns = some w → ∃ base n, s.primAt s.upc = some (.txWrite base n) ∧ 0 < n ∧ w.toNat ≤ n) ∧
  (∀ base n, s.primAt s.upc = some (.rxRead base n) → s.got.toNat ≤ n) ∧
  (s.upc = .dr4 → s.img.rssiByteEn = 1#1 → s.wto = false → s.rxq ≠ []) ∧
  s.baudTaken ≤ s.baudlog.length

/-- The buffer memory keeps its canonical form and holds buffer bytes only (R46, R86). -/
def State.MemInv (s : State) : Prop := s.mem.Wf ∧ ∀ c ∈ s.mem, isBufferByte s.par.payloadMax c.1 = true

/-- The bytes a command puts on the byte stream, index 0 first (R88, R140 to R144, R231). -/
def State.wireBytes (s : State) : Instr → List Byte
  | .readParams => [0xC1#8, 0x00#8, 0x06#8]
  | .saveParams .permanent =>
    [0xC0#8, 0x00#8, 0x06#8, s.img.addh, s.img.addl, s.img.pack0, s.img.pack1, s.img.channel, s.img.pack3]
  | .saveParams .temporary =>
    [0xC2#8, 0x00#8, 0x06#8, s.img.addh, s.img.addl, s.img.pack0, s.img.pack1, s.img.channel, s.img.pack3]
  | .setCryptKey key => [0xC0#8, 0x06#8, 0x02#8, key.extractLsb' 8 8, key.extractLsb' 0 8]
  | .queryRssi => [0xC0#8, 0xC1#8, 0xC2#8, 0xC3#8, 0x00#8, 0x02#8]
  | .send n => s.mem.bytes payloadBase n.toNat
  | .setMode _ | .setField _ _ | .getField _ | .loadReg _ _ | .noiseDbm _ | .receive _ => []

end Sys2Proof.Machine

namespace Sys2Proof

open Sys2Proof.Machine in
/-- The buffer a command sends from. -/
def Instr.wireBase : Instr → Nat
  | .readParams | .saveParams _ => frameBase
  | .setCryptKey _ | .queryRssi => xbufBase
  | .send _ => payloadBase
  | .setMode _ | .setField _ _ | .getField _ | .loadReg _ _ | .noiseDbm _ | .receive _ => 0

end Sys2Proof

namespace Sys2Proof.Machine

/-- The steps from the staging of a frame to its TxWrite, the called SET_MODE(3) among them. -/
def State.staged (s : State) : Bool :=
  match s.upc with
  | .rp2 | .rp3 | .sp2 | .sp3 | .sp4 | .ck2 | .ck3 | .ck4 | .qr3 => true
  | .sm1 | .sm2 | .sm3 | .sm4 | .sm5 | .sm6 | .sm7 | .sm8 =>
    s.ret = some .rp3 || s.ret = some .sp3 || s.ret = some .ck3
  | _ => false

/-- From staging to sending, the buffer holds the command's wire bytes (R94, R210, R214, R233). -/
def State.WireInv (s : State) : Prop :=
  s.staged = true → ∀ i, decode s.par.payloadMax s.cmdlat = .ok i →
    s.mem.bytes i.wireBase (s.wireBytes i).length = s.wireBytes i

/-- A good state. -/
structure State.Inv (s : State) : Prop where
  run : s.RunInv
  flags : s.FlagInv
  lastMode : s.LastModeLegal
  mode : s.ModeInv
  transfer : s.TransferInv
  memory : s.MemInv

/-- The machine right after the reset that begins a run, for any parameters, any draws (R281), any environment (R53,
R36) and any agenda and host program. -/
def State.initial (p : Params) (d : ResetDraw) (rxq : List Byte) (aux : BitVec 1) (agenda : List Move)
    (prog : List HostLine) : State :=
  ({ State.reset with par := p, rxq := rxq, aux := aux, agenda := agenda, prog := prog } : State).resetBlock d

/-- The next step is the block's: the agenda says so, or is empty and the default schedule (log 1) finds the block
enabled. -/
def State.blockSteps (s : State) : Prop :=
  (∃ rest, s.agenda = .block :: rest) ∨ (s.agenda = [] ∧ s.blockEnabled = true)

/-- The next step is the environment's answer of a pending TxWrite (R96). -/
def State.answers (s : State) : Prop :=
  (∃ w rest, s.agenda = .txAnswer w :: rest) ∨ (s.agenda = [] ∧ s.blockEnabled = false ∧ s.txpend = true)

/-- The next step performs the host access `x` (R81): the agenda's head is it, or is the host program's turn and the
program's head is it, or the agenda is empty and the default schedule (log 1) takes the program's head. -/
def State.performs (s : State) (x : Access) : Prop :=
  (∃ rest, s.agenda = .access x :: rest) ∨
    (∃ rest lines, s.agenda = .prog :: rest ∧ s.prog = .access x :: lines) ∨
    (s.agenda = [] ∧ s.blockEnabled = false ∧ s.txpend = false ∧ ∃ lines, s.prog = .access x :: lines)

/-- Delay(t) at a step (R187): it leaves, with the state `after`, exactly where TMR has reached t, and holds till then. -/
def DelayRule (i : Instr) (s : State) (t : Nat) (after : State) : Prop :=
  (t ≤ s.tmr.toNat → exec i s = .next after) ∧ (s.tmr.toNat < t → exec i s = .next s)

/-- WaitFor(RxAvail() > 0, t) at a step (R190): it leaves with timedOut = 0 where a byte is there, with timedOut = 1
where none is and TMR has reached t, and holds otherwise. -/
def WaitRxRule (i : Instr) (s : State) (t : Nat) (after : Bool → State) : Prop :=
  (s.rxq ≠ [] → exec i s = .next (after false)) ∧
  (s.rxq = [] → t ≤ s.tmr.toNat → exec i s = .next (after true)) ∧
  (s.rxq = [] → s.tmr.toNat < t → exec i s = .next s)

/-- BusyWait() at a step (R189): with AUX it leaves on the ready level, or with AUX_TO set where T_AUX_TO ticks have
passed, and holds otherwise; without AUX it is Delay(T_BLIND). -/
def BusyWaitRule (i : Instr) (s : State) (after : State → State) : Prop :=
  (s.par.hasAux = true → s.aux = s.par.auxReadyLevel → exec i s = .next (after s)) ∧
  (s.par.hasAux = true → s.aux ≠ s.par.auxReadyLevel → s.par.tAuxTo ≤ s.tmr.toNat →
    exec i s = .next (after { s with auxTo := true })) ∧
  (s.par.hasAux = true → s.aux ≠ s.par.auxReadyLevel → s.tmr.toNat < s.par.tAuxTo → exec i s = .next s) ∧
  (s.par.hasAux = false → DelayRule i s s.par.tBlind (after s))

/-- w <- TxWrite(BUF, n); R.WCOUNT <- w at a step (R96): at once with 0 for n = 0; else it offers, holds while the
offer is pending, and resumes with the count answered. -/
def TxWriteRule (i : Instr) (s : State) (n : Nat) (after : State → State) : Prop :=
  (n = 0 → exec i s = .next (after { s with wcount := 0 })) ∧
  (0 < n → s.txpend = false → s.txAns = none → exec i s = .next { s with txpend := true }) ∧
  (0 < n → s.txpend = true → exec i s = .next s) ∧
  (0 < n → s.txpend = false → ∀ w, s.txAns = some w → exec i s = .next (after { s with wcount := w, txAns := none }))

/-- k <- RxRead(BUF, n); R.RCOUNT <- k at a step (R99), BUF's bytes at `base`: it leaves with k = n; else it takes a
byte that is there, before the timeout is tested; else it leaves at RX_TIMEOUT; else it holds. -/
def RxReadRule (i : Instr) (s : State) (base n : Nat) (after : State → State) : Prop :=
  (s.got.toNat = n → exec i s = .next (after { s with rcount := s.got })) ∧
  (s.got.toNat ≠ n → ∀ b q, s.rxq = b :: q →
    exec i s = .next
      { s with mem := s.mem.write (base + s.got.toNat) b, rxq := q, got := s.got + 1#16, tmr := 0 }) ∧
  (s.got.toNat ≠ n → s.rxq = [] → s.par.rxTimeout ≤ s.tmr.toNat →
    exec i s = .next (after { s with rcount := s.got })) ∧
  (s.got.toNat ≠ n → s.rxq = [] → s.tmr.toNat < s.par.rxTimeout → exec i s = .next s)

/-- complete(1, 0) (R252). -/
def succeeded (s : State) : State :=
  { s with busy := false, done := true, ok := true, err := 0#4, upc := .idle, ret := none }

/-- raise of the error with this code: complete(0, code) (R13, R250, R252). -/
def failed (s : State) (code : BitVec 4) : State :=
  { s with busy := false, done := true, ok := false, err := code, upc := .idle, ret := none }

/-- The byte addresses the step of a command at UPC stores to: a first address and a count. -/
def State.stores (s : State) : Nat × Nat :=
  match s.upc with
  | .rp1 | .sp1 => (0x040, 9)
  | .ck1 => (0x050, 5)
  | .qr2 => (0x050, 6)
  | .rp5 | .sp6 => (0x040 + s.got.toNat, 1)
  | .ck5 | .qr5 => (0x058 + s.got.toNat, 1)
  | .dr2 => (0x100 + s.got.toNat, 1)
  | _ => (0, 0)

/-- Ticks in a row. -/
def ticks (n : Nat) : List Move := List.replicate n .tick

/-- The agents' moves through one SET_MODE that finds RXQ empty and AUX ready: each delay exactly as long as it has to
be (R181, R194), with no other move between. -/
def setModeMoves (p : Params) : List Move :=
  ticks p.tPre ++ [.block, .block, .block, .block] ++ ticks p.tPost ++ [.block, .block] ++
    (if p.hasAux then [] else ticks p.tBlind) ++ [.block, .block]

/-- The moves through a TxWrite of at least one byte that the environment answers with w. -/
def txMoves (w : BitVec 16) : List Move := [.block, .txAnswer w, .block]

/-- The moves through an RxRead of n bytes in which `reply` arrives, each byte taken as it arrives, and then silence. -/
def rxMoves (p : Params) (n : Nat) (reply : List Byte) : List Move :=
  reply.flatMap (fun b => [.rxByte b, .block]) ++ (if reply.length = n then [] else ticks p.rxTimeout) ++ [.block]

/-- The moves through a BusyWait that finds AUX ready, or waits T_BLIND where there is no AUX. -/
def busyMoves (p : Params) : List Move := (if p.hasAux then [] else ticks p.tBlind) ++ [.block]

/-- The moves through SAVE_PARAMS's wait for the reply and its read of nine bytes (R213), in which `reply` arrives. -/
def saveReplyMoves (p : Params) : List Byte → List Move
  | [] => ticks 5000 ++ [.block] ++ rxMoves p 9 []
  | b :: bs => [.rxByte b, .block, .block] ++ rxMoves p 8 bs

/-- The moves through RECEIVE's poll for the RSSI byte (R232), which arrives or does not. -/
def rssiMoves (enabled : BitVec 1) (rssi : Option Byte) : List Move :=
  if enabled = 1#1 then
    match rssi with
    | some b => [.rxByte b, .block]
    | none => ticks 5 ++ [.block]
  else [.block]

/-- The host's write of a command word to CMD. -/
def writeCmd (i : Instr) : Move := .access (.write 0x000#12 (encode i))

/-- The link is quiet: no byte is queued, and AUX, where there is one, reads ready. -/
def State.Quiet (s : State) : Prop := s.rxq = [] ∧ (s.par.hasAux = true → s.aux = s.par.auxReadyLevel)

end Sys2Proof.Machine
end

