-- ==== Sys2Proof/Certificates/Slice0/Obligations.lean ====
section
/-! DEFINITION. The statements for the provers. They speak of every state (so of every interleaving of the agents, of
every value of the parameters and of every environment) unless a premise says less. -/

open Sys2Proof Sys2Proof.Machine

/-! ### Command words (30_encoding.md) -/

/-- R148, R120 to R123: decoding the encoding of a well-formed command gives it back, for every operand. -/
def Obligations.DecodeOfEncode : Prop :=
  ∀ (pm : Nat) (i : Instr), i.WellFormed pm → decode pm (encode i) = .ok i

/-- R122: a legal word is the encoding of the command it decodes to, and that command is well formed: no two words mean
the same command. -/
def Obligations.EncodeOfDecode : Prop :=
  ∀ (pm : Nat) (w : Word) (i : Instr), decode pm w = .ok i → encode i = w ∧ i.WellFormed pm

/-- R122, R123: the words the decoder takes are those whose masked bits equal a row's match and meet its constraint; at
most one row does, and it is the row of the command decoded. -/
def Obligations.LegalOnExactlyOneRow : Prop :=
  ∀ (pm : Nat) (w : Word),
    ((∃ i, decode pm w = .ok i) ↔ ∃ row ∈ opTable, row.matches pm w = true) ∧
    (∀ row ∈ opTable, ∀ row' ∈ opTable, row.matches pm w = true → row'.matches pm w = true →
      row.mnemonic = row'.mnemonic) ∧
    (∀ i, decode pm w = .ok i → ∀ row ∈ opTable, row.matches pm w = true → row.mnemonic = i.mnemonic)

/-- R121: every operand is the unsigned field of the word that the rule names. -/
def Obligations.OperandsOfALegalWord : Prop :=
  ∀ (pm : Nat) (w : Word) (i : Instr), decode pm w = .ok i →
    match i with
    | .setMode mc => mc.toNat = w.toNat / 2 ^ 16 % 4
    | .setField f v => f.id.toNat = w.toNat / 2 ^ 16 % 16 ∧ v.toNat = w.toNat % 2 ^ 16
    | .getField f => f.id.toNat = w.toNat / 2 ^ 16 % 16
    | .loadReg r b => r.id.toNat = w.toNat / 2 ^ 16 % 8 ∧ b.toNat = w.toNat % 2 ^ 8
    | .noiseDbm raw => raw.toNat = w.toNat % 2 ^ 9
    | .saveParams p => p.bit.toNat = w.toNat / 2 ^ 16 % 2
    | .setCryptKey key => key.toNat = w.toNat % 2 ^ 16
    | .send n => n.toNat = w.toNat % 2 ^ 16
    | .receive n => n.toNat = w.toNat % 2 ^ 16
    | .readParams => True
    | .queryRssi => True

/-- R122, R128: which of the three reasons makes a word illegal: no row for its OP; a row, but no register 6 or 7 or a
size above PAYLOAD_MAX with every must-be-zero bit 0; otherwise a must-be-zero bit. -/
def Obligations.IllegalWordReasons : Prop :=
  ∀ (pm : Nat) (w : Word),
    (decode pm w = .error .unassignedOpcode ↔
      w.toNat / 2 ^ 24 = 0 ∨ (6 ≤ w.toNat / 2 ^ 24 ∧ w.toNat / 2 ^ 24 ≤ 0x0F) ∨ 0x16 ≤ w.toNat / 2 ^ 24) ∧
    (decode pm w = .error .valueConstraint ↔
      (w.toNat / 2 ^ 24 = 0x04 ∧ w &&& 0x00F8FF00#32 = 0#32 ∧ 6 ≤ w.toNat / 2 ^ 16 % 8) ∨
      ((w.toNat / 2 ^ 24 = 0x13 ∨ w.toNat / 2 ^ 24 = 0x14) ∧ w &&& 0x00FF0000#32 = 0#32 ∧ pm < w.toNat % 2 ^ 16))

/-- Words written out from R123's table and the examples of R148, R253 and 95_test_vectors.md. -/
def Obligations.SampleWords : Prop :=
  decode 64 0x01030000#32 = .ok (.setMode 3#2) ∧
  decode 64 0x0200000B#32 = .ok (.setField .uart 11#16) ∧
  decode 64 0x03050000#32 = .ok (.getField .reg1Rsv) ∧
  decode 64 0x040500CB#32 = .ok (.loadReg .reg3 0xCB#8) ∧
  decode 64 0x050001FF#32 = .ok (.noiseDbm 511#9) ∧
  decode 64 0x11010000#32 = .ok (.saveParams .temporary) ∧
  decode 64 0x1200ABCD#32 = .ok (.setCryptKey 0xABCD#16) ∧
  decode 64 0x13000040#32 = .ok (.send 64#16) ∧
  decode 64 0x13000041#32 = .error .valueConstraint

/-! ### Steps, acceptance and the host interface (00_scope.md, 20_memory.md, 60_exceptions.md) -/

/-- R14, R20, R51: a step of the block runs the command latched in CMDLAT at UPC, whether the agenda says it is the
block's turn or the default schedule (log 1) finds the block enabled; an idle block's step changes nothing. -/
def Obligations.StepRunsDecodedInstruction : Prop :=
  (∀ (s : State) (rest : List Move) (i : Instr), s.agenda = .block :: rest → s.upc ≠ .idle →
    decode s.par.payloadMax s.cmdlat = .ok i → step s = exec i { s with agenda := rest }) ∧
  (∀ (s : State) (i : Instr), s.agenda = [] → s.blockEnabled = true → s.upc ≠ .idle →
    decode s.par.payloadMax s.cmdlat = .ok i → step s = exec i s) ∧
  (∀ (s : State) (rest : List Move), s.agenda = .block :: rest → s.upc = .idle →
    step s = .next { s with agenda := rest })

/-- R20, R36, R53: the environment's steps other than its answer: a byte is appended to RXQ, the AUX level changes, a
baud request is consumed where one is left (and nothing happens where none is: log 2). -/
def Obligations.EnvironmentMoves : Prop :=
  ∀ (s : State) (rest : List Move),
    (∀ b, s.agenda = .rxByte b :: rest → step s = .next { s with agenda := rest, rxq := s.rxq ++ [b] }) ∧
    (∀ l, s.agenda = .auxLevel l :: rest → step s = .next { s with agenda := rest, aux := l }) ∧
    (s.agenda = .takeBaud :: rest → s.baudTaken < s.baudlog.length →
      step s = .next { s with agenda := rest, baudTaken := s.baudTaken + 1 }) ∧
    (s.agenda = .takeBaud :: rest → s.baudlog.length ≤ s.baudTaken → step s = .next { s with agenda := rest })

/-- R22, R102, R186: a tick adds one to TMR, saturating, while UPC is at a step that runs Delay, WaitFor, Drain,
BusyWait or RxRead, and changes nothing else; anywhere else, idle included, it changes nothing. That DR3 runs no WaitFor
where F.RSSI_BYTE_EN = 0 is log 15. -/
def Obligations.TickCountsInTimedSteps : Prop :=
  ∀ (s : State) (rest : List Move), s.agenda = .tick :: rest →
    ∃ t, step s = .next { s with agenda := rest, tmr := t } ∧
      t.toNat =
        if s.upc ∈ [.sm1, .sm5, .sm6, .sm7, .rp4, .rp5, .sp3, .sp5, .sp6, .ck3, .ck5, .ds2, .dr2, .dr5, .qr4, .qr5] ∨
            (s.upc = .dr3 ∧ s.img.rssiByteEn = 1#1) then
          min (s.tmr.toNat + 1) (2 ^ 32 - 1)
        else s.tmr.toNat

/-- R251: acceptance of a legal word, all in the host's step: the latch, the clears, UPC at the command's first step,
SMT and RET for SET_MODE, and TMR where the first step is a timing primitive, which only SET_MODE's is. -/
def Obligations.AcceptanceEffect : Prop :=
  ∀ (s : State) (rest : List Move) (a : Addr) (v : Word) (i : Instr),
    s.agenda = .access (.write a v) :: rest → a &&& 0xFFC#12 = 0x000#12 → s.busy = false →
    decode s.par.payloadMax v = .ok i →
    step s = .next
      { s with
        agenda := rest
        cmdlat := v
        busy := true
        done := false
        ok := false
        err := 0#4
        auxTo := false
        drainTo := false
        wcount := 0#16
        rcount := 0#16
        upc :=
          (match i with
          | .setMode _ => .sm1
          | .setField _ _ => .sf1
          | .getField _ => .gf1
          | .loadReg _ _ => .lr1
          | .noiseDbm _ => .nd1
          | .readParams => .rp1
          | .saveParams _ => .sp1
          | .setCryptKey _ => .ck1
          | .send _ => .ds1
          | .receive _ => .dr1
          | .queryRssi => .qr1)
        smt := (match i with | .setMode mc => mc | _ => s.smt)
        ret := (match i with | .setMode _ => none | _ => s.ret)
        tmr := (match i with | .setMode _ => 0#32 | _ => s.tmr) }

/-- R253: an illegal word completes in its acceptance step with OK = 0 and ERR = ILLEGAL; beyond the clears and the
latch of R251 nothing changes, BUSY is 0 after the step, and the next CMD write, legal or not, is accepted and not
refused. -/
def Obligations.IllegalWordCompletes : Prop :=
  ∀ (s : State) (rest : List Move) (a : Addr) (v : Word) (e : Illegal),
    s.agenda = .access (.write a v) :: rest → a &&& 0xFFC#12 = 0x000#12 → s.busy = false →
    decode s.par.payloadMax v = .error e →
    step s = .next
      { s with
        agenda := rest, cmdlat := v, busy := false, done := true, ok := false, err := 4#4, auxTo := false,
        drainTo := false, wcount := 0#16, rcount := 0#16, upc := .idle, ret := none } ∧
    ∀ t, step s = .next t → ∀ v', (t.hostWrite 0x000#12 v').cmdlat = v' ∧
      (t.hostWrite 0x000#12 v').overrun = s.overrun

/-- R84, R254: while BUSY = 1 a write to CMD, CTRL, CUR_BAUD or a PAYLOAD word sets OVERRUN and has no other effect. A
step leaves OVERRUN 1 unless it is a host write of 1 to STATUS bit 3, or a reset; either clears it. -/
def Obligations.BusyRefusal : Prop :=
  (∀ (s : State) (a : Addr) (v : Word), s.busy = true →
    ((a &&& 0xFFC#12).toNat ∈ [0x000, 0x00C, 0x010] ∨
      (0x100 ≤ (a &&& 0xFFC#12).toNat ∧ (a &&& 0xFFC#12).toNat < 0x100 + 4 * ((s.par.payloadMax + 3) / 4))) →
    s.access (.write a v) = { s with overrun := true }) ∧
  (∀ (s t : State), step s = .next t → s.overrun = true →
    t.overrun = true ∨
    (∃ a v, s.performs (.write a v) ∧ a &&& 0xFFC#12 = 0x004#12 ∧ v.getLsbD 3 = true) ∨
    ∃ d rest, s.agenda = .reset d :: rest) ∧
  (∀ (s : State) (a : Addr) (v : Word), a &&& 0xFFC#12 = 0x004#12 → v.getLsbD 3 = true →
    s.access (.write a v) = { s with overrun := false }) ∧
  (∀ (s : State) (d : ResetDraw), (s.resetBlock d).overrun = false)

/-- R81, R91, R147: a host access of the agenda or of the host program is one step, applied to the state as it stands;
the block does not move in it. WAITDONE reads STATUS and is done where BUSY = 0. -/
def Obligations.HostAccessIsOneStep : Prop :=
  (∀ (s : State) (rest : List Move) (x : Access), s.agenda = .access x :: rest →
    step s = .next (({ s with agenda := rest } : State).access x)) ∧
  (∀ (s : State) (rest : List Move) (x : Access) (lines : List HostLine), s.agenda = .prog :: rest →
    s.prog = .access x :: lines → step s = .next (({ s with agenda := rest, prog := lines } : State).access x)) ∧
  (∀ (s : State) (rest : List Move) (lines : List HostLine), s.agenda = .prog :: rest → s.prog = .waitDone :: lines →
    step s = .next
      (({ s with agenda := rest, prog := if s.busy then .waitDone :: lines else lines } : State).access
        (.read 0x004#12))) ∧
  (∀ (s : State) (x : Access), (s.access x).agenda = s.agenda ∧ (s.access x).prog = s.prog ∧
    (s.access x).rxq = s.rxq ∧ (s.access x).txlog = s.txlog ∧ (s.access x).baudlog = s.baudlog ∧
    (s.busy = true → (s.access x).upc = s.upc))

/-- R81, R90: a host read returns the word of the state it is made in and has no side effect: all it leaves is the
model's record of what was read (log 14), and a second read returns the same. -/
def Obligations.ReadsHaveNoSideEffect : Prop :=
  ∀ (s : State) (a b : Addr),
    s.access (.read a) = { s with busReads := s.busReads ++ [(a, s.hostRead a)] } ∧
    (s.access (.read a)).hostRead b = s.hostRead b

/-- R82: address bits 1:0 are ignored, by reads and by writes. -/
def Obligations.AddressLowBitsIgnored : Prop :=
  ∀ (s : State) (a : Addr) (v : Word),
    s.hostRead a = s.hostRead (a &&& 0xFFC#12) ∧ s.hostWrite a v = s.hostWrite (a &&& 0xFFC#12) v

/-- R83: a read of an unmapped word returns 0; a write to an unmapped word or to a read-only register or buffer has no
effect; the bits of STATUS and CTRL that read 0 do so and ignore writes. -/
def Obligations.AccessesThatHitNothing : Prop :=
  (∀ (s : State) (a : Addr),
    (a &&& 0xFFC#12).toNat ∉ [0x000, 0x004, 0x008, 0x00C, 0x010, 0x014, 0x018, 0x01C, 0x020, 0x024, 0x040, 0x044,
      0x048, 0x050, 0x054, 0x058, 0x05C] →
    ¬ (0x100 ≤ (a &&& 0xFFC#12).toNat ∧ (a &&& 0xFFC#12).toNat < 0x100 + 4 * ((s.par.payloadMax + 3) / 4)) →
    s.hostRead a = 0#32) ∧
  (∀ (s : State) (a : Addr) (v : Word), (a &&& 0xFFC#12).toNat ∉ [0x000, 0x004, 0x00C, 0x010] →
    ¬ (0x100 ≤ (a &&& 0xFFC#12).toNat ∧ (a &&& 0xFFC#12).toNat < 0x100 + 4 * ((s.par.payloadMax + 3) / 4)) →
    s.hostWrite a v = s) ∧
  (∀ (s : State) (v : Word),
    s.hostRead 0x004#12 &&& 0xFFFF8800#32 = 0#32 ∧ s.hostRead 0x00C#12 &&& 0xFFFFFFFE#32 = 0#32 ∧
    s.hostRead 0x014#12 &&& 0xFF000000#32 = 0#32 ∧ s.hostRead 0x01C#12 &&& 0xFFFFFFF0#32 = 0#32 ∧
    s.hostWrite 0x004#12 v = (if v.getLsbD 3 then { s with overrun := false } else s) ∧
    (s.hostWrite 0x00C#12 v) = (s.hostWrite 0x00C#12 (v &&& 1#32)))

/-- R86, R87: byte i of a buffer is byte lane i mod 4, little-endian, of the word at B + 4*(i div 4); the lanes past a
buffer's last byte read 0. -/
def Obligations.BufferWindowsRead : Prop :=
  ∀ (s : State) (b i : Nat),
    (∀ n, (b, n) ∈ [(0x040, 9), (0x050, 6), (0x058, 5)] → i < 4 * ((n + 3) / 4) →
      (s.hostRead (BitVec.ofNat 12 (b + 4 * (i / 4)))).toNat / 2 ^ (8 * (i % 4)) % 2 ^ 8 =
        if i < n then (s.mem.read (b + i)).toNat else 0) ∧
    (s.par.payloadMax ≤ 3840 → i < 4 * ((s.par.payloadMax + 3) / 4) →
      (s.hostRead (BitVec.ofNat 12 (0x100 + 4 * (i / 4)))).toNat / 2 ^ (8 * (i % 4)) % 2 ^ 8 =
        if i < s.par.payloadMax then (s.mem.read (0x100 + i)).toNat else 0)

/-- R85, R86: a PAYLOAD word write while BUSY = 0 writes its four lanes that lie below PAYLOAD_MAX and no other byte,
and nothing else of the state. -/
def Obligations.PayloadWordWrite : Prop :=
  ∀ (s : State) (k : Nat) (v : Word), s.mem.Wf → s.busy = false → s.par.payloadMax ≤ 3840 →
    4 * k < 4 * ((s.par.payloadMax + 3) / 4) →
    ∃ m, s.hostWrite (BitVec.ofNat 12 (0x100 + 4 * k)) v = { s with mem := m } ∧
      (∀ j, j < 4 → 4 * k + j < s.par.payloadMax →
        (m.read (0x100 + (4 * k + j))).toNat = v.toNat / 2 ^ (8 * j) % 2 ^ 8) ∧
      (∀ a, ¬ (0x100 + 4 * k ≤ a ∧ a < 0x100 + 4 * k + 4 ∧ a < 0x100 + s.par.payloadMax) → m.read a = s.mem.read a)

/-- R38, R39, R85: an idle host write of CTRL writes bit 0 to AUTOBAUD_EN, of CUR_BAUD the whole word, and nothing else;
each reads back. -/
def Obligations.ControlRegisterWrites : Prop :=
  ∀ (s : State) (v : Word), s.busy = false →
    s.hostWrite 0x00C#12 v = { s with autobaudEn := v.getLsbD 0 } ∧
    (s.hostWrite 0x00C#12 v).hostRead 0x00C#12 = v &&& 1#32 ∧
    s.hostWrite 0x010#12 v = { s with curBaud := v } ∧ (s.hostWrite 0x010#12 v).hostRead 0x010#12 = v

/-- R40 to R45: the bit places of STATUS, CTRL, SAMPLES, XFER, PINS, IMAGE0 and IMAGE1, and the registers read whole. -/
def Obligations.RegisterWordLayouts : Prop :=
  ∀ (s : State),
    (s.hostRead 0x004#12).toNat =
      s.busy.toNat + 2 * s.done.toNat + 4 * s.ok.toNat + 8 * s.overrun.toNat + 2 ^ 4 * s.err.toNat +
        2 ^ 8 * s.auxTo.toNat + 2 ^ 9 * s.drainTo.toNat + 2 ^ 10 * s.rssiValid.toNat +
        2 ^ 12 * s.lastMode.toNat ∧
    s.hostRead 0x000#12 = 0#32 ∧ s.hostRead 0x008#12 = s.result ∧
    (s.hostRead 0x00C#12).toNat = s.autobaudEn.toNat ∧ s.hostRead 0x010#12 = s.curBaud ∧
    (s.hostRead 0x014#12).toNat = s.rssiRx.toNat + 2 ^ 8 * s.noise.toNat + 2 ^ 16 * s.lastRssi.toNat ∧
    (s.hostRead 0x018#12).toNat = s.wcount.toNat + 2 ^ 16 * s.rcount.toNat ∧
    (s.hostRead 0x01C#12).toNat =
      s.m0.toNat + 2 * s.m1.toNat + 4 * (if s.par.hasAux then s.aux.toNat else 0) + 8 * s.par.hasAux.toNat ∧
    (s.hostRead 0x020#12).toNat =
      s.img.addh.toNat + 2 ^ 8 * s.img.addl.toNat + 2 ^ 16 * s.img.pack0.toNat + 2 ^ 24 * s.img.pack1.toNat ∧
    (s.hostRead 0x024#12).toNat =
      s.img.channel.toNat + 2 ^ 8 * s.img.pack3.toNat +
        2 ^ 16 * (2 ^ 8 * s.img.addh.toNat + s.img.addl.toNat)

/-! ### Reset (70_reset_and_hazards.md) -/

/-- R280: a reset sets every piece of block state to its reset value in one step, the image and the buffer bytes to the
draws of R281; RXQ and the AUX level are unchanged. -/
def Obligations.ResetStep : Prop :=
  ∀ (s : State) (rest : List Move) (d : ResetDraw), s.agenda = .reset d :: rest →
    ∃ t, step s = .next t ∧
      t.img = d.img ∧ t.m0 = 0#1 ∧ t.m1 = 0#1 ∧ t.lastMode = 7#3 ∧ t.autobaudEn = false ∧
      t.curBaud = s.par.initBaud ∧ t.busy = false ∧ t.done = false ∧ t.ok = false ∧ t.overrun = false ∧ t.err = 0#4 ∧
      t.auxTo = false ∧ t.drainTo = false ∧ t.rssiValid = false ∧ t.result = 0#32 ∧ t.rssiRx = 0#8 ∧
      t.noise = 0#8 ∧ t.lastRssi = 0#8 ∧ t.wcount = 0#16 ∧ t.rcount = 0#16 ∧ t.cmdlat = 0#32 ∧ t.upc = .idle ∧
      t.ret = none ∧ t.smt = 0#2 ∧ t.tmr = 0#32 ∧ t.got = 0#16 ∧ t.txpend = false ∧ t.wto = false ∧
      t.rxq = s.rxq ∧ t.aux = s.aux ∧
      (∀ a b, (d.cells.filter (fun c => c.1 == a)).head? = some (a, b) → isBufferByte s.par.payloadMax a = true →
        t.mem.read a = b)

/-- R282: a reset abandons a command: DONE = 0 and OK = 0, the pins at 00, the logs kept, and the environment's answer
to a TxWrite that was pending no longer appends anything. -/
def Obligations.ResetAbandonsACommand : Prop :=
  ∀ (s : State) (rest : List Move) (d : ResetDraw), s.agenda = .reset d :: rest →
    ∃ t, step s = .next t ∧ t.upc = .idle ∧ t.done = false ∧ t.ok = false ∧ t.m1 ++ t.m0 = 0#2 ∧
      t.txlog = s.txlog ∧ t.baudlog = s.baudlog ∧ t.agenda = rest ∧
      ∀ (w : BitVec 16) (rest' : List Move),
        step { t with agenda := .txAnswer w :: rest' } = .next { t with agenda := rest' }

/-- The state after the reset that begins a run meets the invariant. What it holds beyond the reset values of the spec
is the model's choice (logs 3 to 7), and the invariant names none of it. -/
def Obligations.ResetStateMeetsInvariant : Prop := State.reset.Inv ∧ State.reset.WireInv

/-- So does that state for any parameters, any draw (R281), any environment and any agenda. -/
def Obligations.InitialStatesMeetInvariant : Prop :=
  ∀ (p : Params) (d : ResetDraw) (rxq : List Byte) (aux : BitVec 1) (agenda : List Move) (prog : List HostLine),
    (State.initial p d rxq aux agenda prog).Inv ∧ (State.initial p d rxq aux agenda prog).WireInv

/-! ### The whole machine -/

/-- Every step of every agent keeps the invariant, and none stops: the block has no trap and no fault (R255, R259), so
the model's own faults (logs 11 and 12) are out of reach. -/
def Obligations.EveryStepKeepsInvariant : Prop := ∀ (s : State), s.Inv → ∃ t, step s = .next t ∧ t.Inv

/-- Every step keeps what a command is about to send in its buffer, from staging to sending (R94, R210). -/
def Obligations.EveryStepKeepsStagedBytes : Prop :=
  ∀ (s t : State), s.Inv → s.WireInv → step s = .next t → t.WireInv

/-- Every step keeps the canonical form of the buffer memory, whatever else the state holds. -/
def Obligations.EveryStepKeepsMemoryForm : Prop := ∀ (s t : State), s.mem.Wf → step s = .next t → t.mem.Wf

/-- R54, R282: the logs only grow, BAUDLOG's consumed part only grows, and no step changes a parameter. -/
def Obligations.LogsOnlyGrow : Prop :=
  ∀ (s t : State), step s = .next t →
    t.par = s.par ∧ (∃ l, t.txlog = s.txlog ++ l) ∧ (∃ l, t.baudlog = s.baudlog ++ l) ∧ s.baudTaken ≤ t.baudTaken ∧
      ∃ l, t.busReads = s.busReads ++ l

/-- R192, with R298's exception: M0 and M1 change only in a step of the block at SM2 or by reset (a); LAST_MODE only in a
step of the block at SM8 or by reset (b), so between SM2 and SM8 it still shows the old mode while the pins show the new
one (c); away from those steps the pins show LAST_MODE, once one has been recorded (d); before the first SET_MODE after
a reset LAST_MODE = 7 and the pins show 00 (e). -/
def Obligations.ModePinInvariants : Prop :=
  (∀ (s t : State), step s = .next t → (t.m0 ≠ s.m0 ∨ t.m1 ≠ s.m1) →
    (s.blockSteps ∧ s.upc = .sm2) ∨ ∃ d rest, s.agenda = .reset d :: rest) ∧
  (∀ (s t : State), step s = .next t → t.lastMode ≠ s.lastMode →
    (s.blockSteps ∧ s.upc = .sm8) ∨ ∃ d rest, s.agenda = .reset d :: rest) ∧
  (∀ (s t : State), s.Inv → step s = .next t →
    (t.upc ∈ [.sm3, .sm4, .sm5, .sm6, .sm7, .sm8] → t.m1 ++ t.m0 = t.smt) ∧
    (t.upc ∉ [.sm3, .sm4, .sm5, .sm6, .sm7, .sm8] → t.lastMode ≠ 7#3 →
      t.lastMode = (t.m1 ++ t.m0).setWidth 3) ∧
    (t.upc ∉ [.sm3, .sm4, .sm5, .sm6, .sm7, .sm8] → t.lastMode = 7#3 → t.m1 ++ t.m0 = 0#2))

/-- R32, R38, R39, R41, R42, R46, R54, R94: who writes what, whatever step runs: the block at the steps named, a host
write of CTRL, CUR_BAUD or a PAYLOAD word while BUSY = 0, or the environment's answer. -/
def Obligations.OnlyTheNamedWriters : Prop :=
  ∀ (s t : State), step s = .next t → (¬ ∃ d rest, s.agenda = .reset d :: rest) →
    (t.img ≠ s.img → s.blockSteps ∧ s.upc ∈ [.sf1, .lr1, .rp6]) ∧
    (t.result ≠ s.result → s.blockSteps ∧ s.upc ∈ [.gf1, .nd1]) ∧
    (t.rssiRx ≠ s.rssiRx → s.blockSteps ∧ s.upc = .dr4) ∧
    (t.noise ≠ s.noise ∨ t.lastRssi ≠ s.lastRssi → s.blockSteps ∧ s.upc = .qr6) ∧
    (t.rssiValid ≠ s.rssiValid → s.blockSteps ∧ s.upc ∈ [.dr1, .dr4]) ∧
    (t.curBaud ≠ s.curBaud →
      (s.blockSteps ∧ s.upc ∈ [.sm3, .sm4]) ∨
        (s.busy = false ∧ ∃ a v, s.performs (.write a v) ∧ a &&& 0xFFC#12 = 0x010#12)) ∧
    (t.autobaudEn ≠ s.autobaudEn →
      s.busy = false ∧ ∃ a v, s.performs (.write a v) ∧ a &&& 0xFFC#12 = 0x00C#12) ∧
    (t.baudlog ≠ s.baudlog → s.blockSteps ∧ s.upc ∈ [.sm3, .sm4]) ∧
    (t.txlog ≠ s.txlog → s.answers ∧ s.txpend = true ∧ s.upc ∈ [.rp3, .sp4, .ck4, .ds1, .qr3]) ∧
    (t.mem ≠ s.mem →
      (s.blockSteps ∧ s.upc ∈ [.rp1, .rp5, .sp1, .sp6, .ck1, .ck5, .dr2, .qr2, .qr5]) ∨
        (s.busy = false ∧ ∃ a v, s.performs (.write a v) ∧ 0x100 ≤ (a &&& 0xFFC#12).toNat ∧
          (a &&& 0xFFC#12).toNat < 0x100 + 4 * ((s.par.payloadMax + 3) / 4)))

/-- R46, R99, R210: a command's step changes no byte of memory outside those it stores to: the frame or command it
stages, or the one byte its RxRead takes. -/
def Obligations.MemoryFrameOfCommands : Prop :=
  ∀ (i : Instr) (s t : State), s.mem.Wf → exec i s = .next t →
    ∀ a, ¬ (s.stores.1 ≤ a ∧ a < s.stores.1 + s.stores.2) → t.mem.read a = s.mem.read a

/-- R88, R96, R216, R233: the bytes a step adds to TXLOG are a prefix of the running command's wire bytes, each tagged
with the mode code on the pins, which is 3 for the configuration commands and 0 for QUERY_RSSI. -/
def Obligations.SentBytesAreTheWireFrame : Prop :=
  ∀ (s t : State), s.Inv → s.WireInv → step s = .next t → t.txlog ≠ s.txlog →
    ∃ i w, decode s.par.payloadMax s.cmdlat = .ok i ∧ s.upc ≠ .idle ∧
      t.txlog = s.txlog ++ ((s.wireBytes i).take w).map (fun b => (b, s.m1 ++ s.m0)) ∧
      (match i with
      | .readParams => s.m1 ++ s.m0 = 3#2
      | .saveParams _ => s.m1 ++ s.m0 = 3#2
      | .setCryptKey _ => s.m1 ++ s.m0 = 3#2
      | .queryRssi => s.m1 ++ s.m0 = 0#2
      | .send _ => True
      | _ => False)

/-- R215, R216: in the step in which a configuration command completes, whatever its outcome, LAST_MODE = 0, the pins
show 00, and AUX_TO and DRAIN_TO are as the command left them. -/
def Obligations.ConfigCommandsEndInNormal : Prop :=
  ∀ (s t : State) (i : Instr), s.Inv → step s = .next t → s.busy = true → t.busy = false →
    (¬ ∃ d rest, s.agenda = .reset d :: rest) → decode s.par.payloadMax s.cmdlat = .ok i →
    i ∈ [.readParams, .saveParams .permanent, .saveParams .temporary] ∨ (∃ key, i = .setCryptKey key) →
    t.done = true ∧ t.lastMode = 0#3 ∧ t.m1 ++ t.m0 = 0#2 ∧ t.auxTo = s.auxTo ∧ t.drainTo = s.drainTo

/-- R250, R256: in the step in which a command completes it reports exactly one outcome: OK = 1 with ERR = 0, or OK = 0
with the one code that its rule names, by its counts, its echo byte and its precondition, in the order of R256. -/
def Obligations.OneOutcomePerCommand : Prop :=
  ∀ (s t : State) (i : Instr), s.Inv → step s = .next t → s.busy = true → t.busy = false →
    (¬ ∃ d rest, s.agenda = .reset d :: rest) → decode s.par.payloadMax s.cmdlat = .ok i →
    t.done = true ∧ (t.ok = true ↔ t.err = 0#4) ∧
    t.err.toNat =
      (match i with
      | .readParams =>
        if s.rcount.toNat < 9 then 1 else if s.mem.read 0x040 ≠ 0xC1#8 then 2 else 0
      | .saveParams _ => if s.wcount.toNat ≠ 9 ∨ s.rcount.toNat ≠ 9 then 1 else 0
      | .setCryptKey _ => if s.wcount.toNat ≠ 5 ∨ s.rcount.toNat ≠ 5 then 1 else 0
      | .send n => if s.wcount ≠ n then 1 else 0
      | .receive n => if s.rcount ≠ n then 1 else 0
      | .queryRssi =>
        if s.upc = .qr1 then (if s.img.ambNoiseEn = 0#1 ∨ s.lastMode ≠ 0#3 then 3 else 0)
        else if s.rcount.toNat ≠ 5 then 1 else 0
      | _ => 0)

/-- R102, R187 to R190: where the block is not enabled its step changes nothing (it holds), and where it is enabled its
step changes the state. -/
def Obligations.BlockHoldsExactlyWhenNotEnabled : Prop :=
  ∀ (s : State), s.Inv →
    (s.blockEnabled = false → s.blockStep = .next s) ∧
    (s.blockEnabled = true → ∃ t, s.blockStep = .next t ∧ t ≠ s)

/-- R36, R260: without AUX, its level is never sampled: no step can tell two states apart that differ in it only. -/
def Obligations.AbsentAuxIsNeverSampled : Prop :=
  ∀ (s t : State) (l : BitVec 1), s.par.hasAux = false → step s = .next t →
    ∃ l', step { s with aux := l } = .next { t with aux := l' }

/-- R261 for the runs of the default schedule (log 1), which realises the fairness of R21 and R23, with free counts
(log 8) and no other environment step: every accepted command reaches `complete`, where every duration can be reached by
the timer (log 13). -/
def Obligations.EveryCommandCompletes : Prop :=
  ∀ (s : State), s.Inv → s.par.Reachable → s.busy = true → s.agenda = [] →
    ∃ k t, Sys2Proof.core.run k s = .next t ∧ t.busy = false ∧ t.done = true ∧ t.cmdlat = s.cmdlat

/-! ### The codec commands (40_codec.md) -/

/-- R161: SET_FIELD completes with OK = 1; its field holds the value truncated to the field's width, every other field
is as before, and nothing else changes. -/
def Obligations.SetFieldEffect : Prop :=
  ∀ (f : Field) (v : BitVec 16) (s : State), s.upc = .sf1 →
    ∃ img, exec (.setField f v) s = .next (succeeded { s with img := img }) ∧
      (img.field f).toNat = v.toNat % 2 ^ f.width ∧ ∀ g, g ≠ f → img.field g = s.img.field g

/-- R162, R125: GET_FIELD completes with OK = 1 and RESULT = the field's bits of its packed register byte, zero-extended,
and changes nothing else. -/
def Obligations.GetFieldEffect : Prop :=
  ∀ (f : Field) (s : State), s.upc = .gf1 →
    ∃ r, exec (.getField f) s = .next (succeeded { s with result := r }) ∧
      r.toNat = (s.img.regbyte f.place.1).toNat / 2 ^ f.place.2 % 2 ^ f.width

/-- R163, R165: LOAD_REG completes with OK = 1; the register's byte is then b, every other register's byte is as before,
and nothing else changes. -/
def Obligations.LoadRegEffect : Prop :=
  ∀ (r : Reg) (b : Byte) (s : State), s.upc = .lr1 →
    ∃ img, exec (.loadReg r b) s = .next (succeeded { s with img := img }) ∧
      img.regbyte r = b ∧ ∀ q, q ≠ r → img.regbyte q = s.img.regbyte q

/-- R164: NOISE_DBM completes with OK = 1 and RESULT = raw - 256 in two's complement, and changes nothing else. -/
def Obligations.NoiseDbmEffect : Prop :=
  ∀ (raw : BitVec 9) (s : State), s.upc = .nd1 →
    ∃ r, exec (.noiseDbm raw) s = .next (succeeded { s with result := r }) ∧ r.toInt = (raw.toNat : Int) - 256

/-- R166: the two laws of the codec, for each of the six registers. -/
def Obligations.CodecLaws : Prop :=
  (∀ (f : Image) (r : Reg), f.setReg r (f.regbyte r) = f) ∧
  (∀ (f : Image) (r : Reg) (b : Byte), (f.setReg r b).regbyte r = b)

/-- R130 to R134, R160: every field stands at its bits of its register's byte, and every bit of every register belongs
to exactly one field. -/
def Obligations.PackedLayout : Prop :=
  (∀ (img : Image) (f : Field),
    (img.field f).toNat = (img.regbyte f.place.1).toNat / 2 ^ f.place.2 % 2 ^ f.width) ∧
  (∀ (r : Reg) (j : Fin 8), ∃ f : Field, f.place.1 = r ∧ f.place.2 ≤ j ∧ j < f.place.2 + f.width ∧
    ∀ g : Field, g.place.1 = r → g.place.2 ≤ j → j < g.place.2 + g.width → g = f)

/-! ### SET_MODE (41_mode_fsm.md) -/

/-- R181 to R185: the eight steps of SET_MODE; at SM8 the top-level command completes with OK = 1, and a called one
returns to the step in RET, entering it (R186, R99). -/
def Obligations.SetModeSteps : Prop :=
  ∀ (mc : BitVec 2) (s : State),
    (s.upc = .sm1 → DelayRule (.setMode mc) s s.par.tPre { s with upc := .sm2 }) ∧
    (s.upc = .sm2 → ∃ a b, exec (.setMode mc) s = .next { s with m1 := a, m0 := b, upc := .sm3 } ∧ a ++ b = s.smt) ∧
    (s.upc = .sm3 →
      exec (.setMode mc) s = .next
        (if s.smt = 3#2 ∧ s.autobaudEn = true ∧ s.par.baudOf.get s.img.uart.toFin ≠ 9600#32 then
          { s with baudlog := s.baudlog ++ [9600#32], curBaud := 9600#32, upc := .sm4 }
        else { s with upc := .sm4 })) ∧
    (s.upc = .sm4 →
      exec (.setMode mc) s = .next
        (if s.smt ≠ 3#2 ∧ s.autobaudEn = true ∧ s.curBaud ≠ s.par.baudOf.get s.img.uart.toFin then
          { s with
            baudlog := s.baudlog ++ [s.par.baudOf.get s.img.uart.toFin]
            curBaud := s.par.baudOf.get s.img.uart.toFin
            upc := .sm5
            tmr := 0 }
        else { s with upc := .sm5, tmr := 0 })) ∧
    (s.upc = .sm5 → DelayRule (.setMode mc) s s.par.tPost { s with upc := .sm6, tmr := 0 }) ∧
    (s.upc = .sm6 →
      (s.rxq = [] → exec (.setMode mc) s = .next { s with upc := .sm7, tmr := 0 }) ∧
      (∀ b q, s.rxq = b :: q → 5000 ≤ s.tmr.toNat →
        exec (.setMode mc) s = .next { s with drainTo := true, upc := .sm7, tmr := 0 }) ∧
      (∀ b q, s.rxq = b :: q → s.tmr.toNat < 5000 → exec (.setMode mc) s = .next { s with rxq := q })) ∧
    (s.upc = .sm7 → BusyWaitRule (.setMode mc) s (fun u => { u with upc := .sm8 })) ∧
    (s.upc = .sm8 →
      (s.ret = none → exec (.setMode mc) s = .next (succeeded { s with lastMode := s.smt.setWidth 3 })) ∧
      (∀ l, s.ret = some l →
        exec (.setMode mc) s =
          .next (({ s with lastMode := s.smt.setWidth 3, ret := none } : State).goto l)))

/-- R181, R193: the SET_MODE that a configuration command calls is the same micro-program, step by step. -/
def Obligations.CalledSetModeIsTheSame : Prop :=
  ∀ (i : Instr) (s : State) (mc : BitVec 2),
    i ∈ [.readParams, .saveParams .permanent, .saveParams .temporary] ∨ (∃ key, i = .setCryptKey key) →
    s.upc ∈ [.sm1, .sm2, .sm3, .sm4, .sm5, .sm6, .sm7, .sm8] → exec i s = exec (.setMode mc) s

/-- R181, R194, R195: the whole of a SET_MODE that finds the link quiet, from the host's write to completion: it counts
exactly T_PRE + T_POST ticks, and T_BLIND more where there is no AUX; then the pins and LAST_MODE show mc, OK = 1, and
BAUDLOG and CUR_BAUD are as SM3 and SM4 say. Everything else is as acceptance left it. -/
def Obligations.SetModeRunsToTheEnd : Prop :=
  ∀ (s : State) (mc : BitVec 2) (rest : List Move), s.Inv → s.busy = false → s.par.Reachable → s.Quiet →
    s.agenda = writeCmd (.setMode mc) :: (setModeMoves s.par ++ rest) →
    ∃ t, Sys2Proof.core.run (1 + (setModeMoves s.par).length) s = .next t ∧
      t = { succeeded s with
            agenda := rest, cmdlat := encode (.setMode mc), auxTo := false, drainTo := false, wcount := 0, rcount := 0,
            smt := mc, m0 := t.m0, m1 := t.m1, lastMode := mc.setWidth 3, tmr := t.tmr, baudlog := t.baudlog,
            curBaud := t.curBaud } ∧
      t.m1 ++ t.m0 = mc ∧
      (if mc = 3#2 ∧ s.autobaudEn = true ∧ s.par.baudOf.get s.img.uart.toFin ≠ 9600#32 then
        t.baudlog = s.baudlog ++ [9600#32] ∧ t.curBaud = 9600#32
      else if mc ≠ 3#2 ∧ s.autobaudEn = true ∧ s.curBaud ≠ s.par.baudOf.get s.img.uart.toFin then
        t.baudlog = s.baudlog ++ [s.par.baudOf.get s.img.uart.toFin] ∧
          t.curBaud = s.par.baudOf.get s.img.uart.toFin
      else t.baudlog = s.baudlog ∧ t.curBaud = s.curBaud)

/-! ### Transfers (20_memory.md) -/

/-- R96, R88: the environment's answer w, at most n, to the TxWrite that is pending at UPC: the first w bytes of the
step's buffer enter TXLOG in order, index 0 first, each with the mode code on the pins, and the offer ends. An answer to
no pending write, or above n, is none (log 2). -/
def Obligations.TxWriteAnswer : Prop :=
  ∀ (s : State) (rest : List Move) (w : BitVec 16) (l : Label) (base n : Nat), s.agenda = .txAnswer w :: rest →
    (l, base, n) ∈ [(.rp3, 0x040, 3), (.sp4, 0x040, 9), (.ck4, 0x050, 5), (.qr3, 0x050, 6),
      (.ds1, 0x100, s.cmdlat.toNat % 2 ^ 16)] →
    (s.upc = l → s.txpend = true → w.toNat ≤ n →
      step s = .next
        { s with
          agenda := rest
          txlog := s.txlog ++ (List.range w.toNat).map (fun k => (s.mem.read (base + k), s.m1 ++ s.m0))
          txpend := false
          txAns := some w }) ∧
    ((s.upc = l ∧ n < w.toNat) ∨ s.txpend = false → step s = .next { s with agenda := rest })

/-! ### The configuration session (42_config_session.md) -/

/-- R211, R210, R212: the steps of READ_PARAMS that are its own, with the outcomes of RP8 in their order. -/
def Obligations.ReadParamsSteps : Prop :=
  ∀ (s : State),
    (s.upc = .rp1 →
      exec .readParams s = .next
        { s with
          mem := s.mem.writeBytes 0x040
            [0xC1#8, 0x00#8, 0x06#8, s.img.addh, s.img.addl, s.img.pack0, s.img.pack1, s.img.channel, s.img.pack3]
          upc := .rp2 }) ∧
    (s.upc = .rp2 → exec .readParams s = .next { s with ret := some .rp3, smt := 3#2, upc := .sm1, tmr := 0 }) ∧
    (s.upc = .rp3 → TxWriteRule .readParams s 3 (fun u => { u with upc := .rp4, tmr := 0 })) ∧
    (s.upc = .rp4 → DelayRule .readParams s s.par.tRdSettle { s with upc := .rp5, tmr := 0, got := 0 }) ∧
    (s.upc = .rp5 → RxReadRule .readParams s 0x040 9 (fun u => { u with upc := .rp6 })) ∧
    (s.upc = .rp6 →
      ∃ img, exec .readParams s = .next { s with img := img, upc := .rp7 } ∧
        ∀ r : Reg, img.regbyte r = s.mem.read (0x043 + r.id.toNat)) ∧
    (s.upc = .rp7 → exec .readParams s = .next { s with ret := some .rp8, smt := 0#2, upc := .sm1, tmr := 0 }) ∧
    (s.upc = .rp8 →
      (s.rcount.toNat < 9 → exec .readParams s = .next (failed s 1#4)) ∧
      (9 ≤ s.rcount.toNat → s.mem.read 0x040 ≠ 0xC1#8 → exec .readParams s = .next (failed s 2#4)) ∧
      (9 ≤ s.rcount.toNat → s.mem.read 0x040 = 0xC1#8 → exec .readParams s = .next (succeeded s)))

/-- R213, R210: the steps of SAVE_PARAMS that are its own; the command byte of the frame is 0xC0 for PERMANENT and 0xC2
for TEMPORARY (R127). -/
def Obligations.SaveParamsSteps : Prop :=
  ∀ (p : Persistence) (s : State),
    (s.upc = .sp1 →
      exec (.saveParams p) s = .next
        { s with
          mem := s.mem.writeBytes 0x040
            [if p = .permanent then 0xC0#8 else 0xC2#8, 0x00#8, 0x06#8, s.img.addh, s.img.addl, s.img.pack0,
              s.img.pack1, s.img.channel, s.img.pack3]
          upc := .sp2 }) ∧
    (s.upc = .sp2 → exec (.saveParams p) s = .next { s with ret := some .sp3, smt := 3#2, upc := .sm1, tmr := 0 }) ∧
    (s.upc = .sp3 → DelayRule (.saveParams p) s s.par.tSavePre { s with upc := .sp4 }) ∧
    (s.upc = .sp4 → TxWriteRule (.saveParams p) s 9 (fun u => { u with upc := .sp5, tmr := 0 })) ∧
    (s.upc = .sp5 → WaitRxRule (.saveParams p) s 5000 (fun _ => { s with upc := .sp6, tmr := 0, got := 0 })) ∧
    (s.upc = .sp6 → RxReadRule (.saveParams p) s 0x040 9 (fun u => { u with upc := .sp7 })) ∧
    (s.upc = .sp7 → exec (.saveParams p) s = .next { s with ret := some .sp8, smt := 0#2, upc := .sm1, tmr := 0 }) ∧
    (s.upc = .sp8 →
      (s.wcount ≠ 9#16 ∨ s.rcount ≠ 9#16 → exec (.saveParams p) s = .next (failed s 1#4)) ∧
      (s.wcount = 9#16 → s.rcount = 9#16 → exec (.saveParams p) s = .next (succeeded s)))

/-- R214, R143: the steps of SET_CRYPT_KEY that are its own; the key goes out high byte first (R89). -/
def Obligations.SetCryptKeySteps : Prop :=
  ∀ (key : BitVec 16) (s : State),
    (s.upc = .ck1 →
      exec (.setCryptKey key) s = .next
        { s with
          mem := s.mem.writeBytes 0x050
            [0xC0#8, 0x06#8, 0x02#8, BitVec.ofNat 8 (key.toNat / 256), BitVec.ofNat 8 (key.toNat % 256)]
          upc := .ck2 }) ∧
    (s.upc = .ck2 → exec (.setCryptKey key) s = .next { s with ret := some .ck3, smt := 3#2, upc := .sm1, tmr := 0 }) ∧
    (s.upc = .ck3 → DelayRule (.setCryptKey key) s s.par.tSavePre { s with upc := .ck4 }) ∧
    (s.upc = .ck4 → TxWriteRule (.setCryptKey key) s 5 (fun u => { u with upc := .ck5, tmr := 0, got := 0 })) ∧
    (s.upc = .ck5 → RxReadRule (.setCryptKey key) s 0x058 5 (fun u => { u with upc := .ck6 })) ∧
    (s.upc = .ck6 → exec (.setCryptKey key) s = .next { s with ret := some .ck7, smt := 0#2, upc := .sm1, tmr := 0 }) ∧
    (s.upc = .ck7 →
      (s.wcount ≠ 5#16 ∨ s.rcount ≠ 5#16 → exec (.setCryptKey key) s = .next (failed s 1#4)) ∧
      (s.wcount = 5#16 → s.rcount = 5#16 → exec (.setCryptKey key) s = .next (succeeded s)))

/-- R211, R212: the whole of a READ_PARAMS on a quiet link, from the host's write to completion, whatever count w the
transport answers and whatever reply of at most nine bytes arrives: the read request went out with mode code 3; the
received bytes stand in FRAME and, unpacked, in the image; the rest of FRAME is as RP1 staged it and the rest of the
image as it was; OK = 1 exactly where nine bytes came and the first is 0xC1; the mode is NORMAL again. -/
def Obligations.ReadParamsRunsToTheEnd : Prop :=
  ∀ (s : State) (w : BitVec 16) (reply : List Byte) (rest : List Move), s.Inv → s.busy = false → s.par.Reachable →
    s.Quiet → w.toNat ≤ 3 → reply.length ≤ 9 →
    s.agenda = writeCmd .readParams :: ([.block, .block] ++ setModeMoves s.par ++ txMoves w ++
      (ticks s.par.tRdSettle ++ [.block]) ++ rxMoves s.par 9 reply ++ [.block, .block] ++ setModeMoves s.par ++
      [.block] ++ rest) →
    ∃ k t, Sys2Proof.core.run k s = .next t ∧ t.agenda = rest ∧ t.busy = false ∧ t.done = true ∧
      t.err = (if reply.length < 9 then 1#4 else if reply[0]? = some 0xC1#8 then 0#4 else 2#4) ∧
      (t.ok = true ↔ t.err = 0#4) ∧ t.wcount = w ∧ t.rcount.toNat = reply.length ∧ t.lastMode = 0#3 ∧
      t.m1 ++ t.m0 = 0#2 ∧ t.rxq = [] ∧
      t.txlog = s.txlog ++ (([0xC1#8, 0x00#8, 0x06#8] : List Byte).take w.toNat).map (fun b => (b, 3#2)) ∧
      (∀ r : Reg, t.img.regbyte r = (reply[3 + r.id.toNat]?).getD (s.img.regbyte r)) ∧
      (∀ k, k < reply.length → t.mem.read (0x040 + k) = (reply[k]?).getD 0) ∧
      (∀ k, reply.length ≤ k → k < 9 →
        t.mem.read (0x040 + k) =
          (([0xC1#8, 0x00#8, 0x06#8, s.img.addh, s.img.addl, s.img.pack0, s.img.pack1, s.img.channel,
            s.img.pack3] : List Byte)[k]?).getD 0) ∧
      (∀ a, ¬ (0x040 ≤ a ∧ a < 0x049) → t.mem.read a = s.mem.read a) ∧
      t.result = s.result ∧ t.rssiValid = s.rssiValid ∧ t.overrun = s.overrun

/-- R213: the whole of a SAVE_PARAMS on a quiet link, whatever count w the transport answers and whatever reply of at
most nine bytes arrives: the frame went out with mode code 3, its command byte by persistence; the reply stands in
FRAME and the rest of FRAME is as staged; OK = 1 exactly where nine bytes went out and nine came; the image is as it was
and the mode is NORMAL again. -/
def Obligations.SaveParamsRunsToTheEnd : Prop :=
  ∀ (s : State) (p : Persistence) (w : BitVec 16) (reply : List Byte) (rest : List Move), s.Inv → s.busy = false →
    s.par.Reachable → s.Quiet → w.toNat ≤ 9 → reply.length ≤ 9 →
    s.agenda = writeCmd (.saveParams p) :: ([.block, .block] ++ setModeMoves s.par ++
      (ticks s.par.tSavePre ++ [.block]) ++ txMoves w ++ saveReplyMoves s.par reply ++ [.block] ++
      setModeMoves s.par ++ [.block] ++ rest) →
    ∃ k t, Sys2Proof.core.run k s = .next t ∧ t.agenda = rest ∧ t.busy = false ∧ t.done = true ∧
      t.err = (if w = 9#16 ∧ reply.length = 9 then 0#4 else 1#4) ∧ (t.ok = true ↔ t.err = 0#4) ∧ t.wcount = w ∧
      t.rcount.toNat = reply.length ∧ t.lastMode = 0#3 ∧ t.m1 ++ t.m0 = 0#2 ∧ t.rxq = [] ∧
      t.txlog = s.txlog ++
        (([if p = .permanent then 0xC0#8 else 0xC2#8, 0x00#8, 0x06#8, s.img.addh, s.img.addl, s.img.pack0,
          s.img.pack1, s.img.channel, s.img.pack3] : List Byte).take w.toNat).map (fun b => (b, 3#2)) ∧
      t.img = s.img ∧ (∀ k, k < reply.length → t.mem.read (0x040 + k) = (reply[k]?).getD 0) ∧
      (∀ k, reply.length ≤ k → k < 9 →
        t.mem.read (0x040 + k) =
          (([if p = .permanent then 0xC0#8 else 0xC2#8, 0x00#8, 0x06#8, s.img.addh, s.img.addl, s.img.pack0,
            s.img.pack1, s.img.channel, s.img.pack3] : List Byte)[k]?).getD 0) ∧
      (∀ a, ¬ (0x040 ≤ a ∧ a < 0x049) → t.mem.read a = s.mem.read a) ∧
      t.result = s.result ∧ t.rssiValid = s.rssiValid ∧ t.overrun = s.overrun

/-- R214: the whole of a SET_CRYPT_KEY on a quiet link: the crypt-set command went out with mode code 3, key high byte
first, and stands in XBUF; the reply stands in RBUF, whose bytes past it are as before; OK = 1 exactly where five bytes
went out and five came. -/
def Obligations.SetCryptKeyRunsToTheEnd : Prop :=
  ∀ (s : State) (key w : BitVec 16) (reply : List Byte) (rest : List Move), s.Inv → s.busy = false →
    s.par.Reachable → s.Quiet → w.toNat ≤ 5 → reply.length ≤ 5 →
    s.agenda = writeCmd (.setCryptKey key) :: ([.block, .block] ++ setModeMoves s.par ++
      (ticks s.par.tSavePre ++ [.block]) ++ txMoves w ++ rxMoves s.par 5 reply ++ [.block] ++ setModeMoves s.par ++
      [.block] ++ rest) →
    ∃ k t, Sys2Proof.core.run k s = .next t ∧ t.agenda = rest ∧ t.busy = false ∧ t.done = true ∧
      t.err = (if w = 5#16 ∧ reply.length = 5 then 0#4 else 1#4) ∧ (t.ok = true ↔ t.err = 0#4) ∧ t.wcount = w ∧
      t.rcount.toNat = reply.length ∧ t.lastMode = 0#3 ∧ t.m1 ++ t.m0 = 0#2 ∧ t.rxq = [] ∧
      t.txlog = s.txlog ++
        (([0xC0#8, 0x06#8, 0x02#8, BitVec.ofNat 8 (key.toNat / 256), BitVec.ofNat 8 (key.toNat % 256)] :
          List Byte).take w.toNat).map (fun b => (b, 3#2)) ∧
      t.img = s.img ∧ (∀ k, k < reply.length → t.mem.read (0x058 + k) = (reply[k]?).getD 0) ∧
      (∀ k, k < 5 →
        t.mem.read (0x050 + k) =
          (([0xC0#8, 0x06#8, 0x02#8, BitVec.ofNat 8 (key.toNat / 256), BitVec.ofNat 8 (key.toNat % 256)] :
            List Byte)[k]?).getD 0) ∧
      (∀ a, ¬ (0x050 ≤ a ∧ a < 0x055) → ¬ (0x058 ≤ a ∧ a < 0x058 + reply.length) → t.mem.read a = s.mem.read a) ∧
      t.result = s.result ∧ t.rssiValid = s.rssiValid ∧ t.overrun = s.overrun

/-! ### The data session (43_data_session.md) -/

/-- R231: the steps of SEND. -/
def Obligations.SendSteps : Prop :=
  ∀ (n : BitVec 16) (s : State),
    (s.upc = .ds1 → TxWriteRule (.send n) s n.toNat (fun u => { u with upc := .ds2, tmr := 0 })) ∧
    (s.upc = .ds2 → BusyWaitRule (.send n) s (fun u => { u with upc := .ds3 })) ∧
    (s.upc = .ds3 →
      (s.wcount ≠ n → exec (.send n) s = .next (failed s 1#4)) ∧
      (s.wcount = n → exec (.send n) s = .next (succeeded s)))

/-- R232: the steps of RECEIVE. DR3 with F.RSSI_BYTE_EN = 0 waits for nothing and clears no timer (log 15); DR4 pops
the byte the poll found, and stops, by the model's own fault, on the empty queue that R98 forbids (log 12). -/
def Obligations.ReceiveSteps : Prop :=
  ∀ (n : BitVec 16) (s : State),
    (s.upc = .dr1 →
      exec (.receive n) s = .next { s with rssiValid := false, upc := .dr2, tmr := 0, got := 0 }) ∧
    (s.upc = .dr2 →
      RxReadRule (.receive n) s 0x100 n.toNat
        (fun u => { u with upc := .dr3, tmr := if u.img.rssiByteEn = 1#1 then 0 else u.tmr })) ∧
    (s.upc = .dr3 → s.img.rssiByteEn = 1#1 →
      WaitRxRule (.receive n) s 5 (fun timedOut => { s with wto := timedOut, upc := .dr4 })) ∧
    (s.upc = .dr3 → s.img.rssiByteEn = 0#1 → exec (.receive n) s = .next { s with wto := true, upc := .dr4 }) ∧
    (s.upc = .dr4 → s.img.rssiByteEn = 1#1 → s.wto = false →
      (∀ b q, s.rxq = b :: q →
        exec (.receive n) s =
          .next { s with rxq := q, rssiRx := b, rssiValid := true, upc := .dr5, tmr := 0 }) ∧
      (s.rxq = [] → exec (.receive n) s = .fault .popOfEmptyQueue)) ∧
    (s.upc = .dr4 → s.img.rssiByteEn = 0#1 ∨ s.wto = true →
      exec (.receive n) s = .next { s with upc := .dr5, tmr := 0 }) ∧
    (s.upc = .dr5 → BusyWaitRule (.receive n) s (fun u => { u with upc := .dr6 })) ∧
    (s.upc = .dr6 →
      (s.rcount ≠ n → exec (.receive n) s = .next (failed s 1#4)) ∧
      (s.rcount = n → exec (.receive n) s = .next (succeeded s)))

/-- R233, R144: the steps of QUERY_RSSI. -/
def Obligations.QueryRssiSteps : Prop :=
  ∀ (s : State),
    (s.upc = .qr1 →
      (s.img.ambNoiseEn = 0#1 ∨ s.lastMode ≠ 0#3 → exec .queryRssi s = .next (failed s 3#4)) ∧
      (s.img.ambNoiseEn = 1#1 → s.lastMode = 0#3 → exec .queryRssi s = .next { s with upc := .qr2 })) ∧
    (s.upc = .qr2 →
      exec .queryRssi s = .next
        { s with mem := s.mem.writeBytes 0x050 [0xC0#8, 0xC1#8, 0xC2#8, 0xC3#8, 0x00#8, 0x02#8], upc := .qr3 }) ∧
    (s.upc = .qr3 → TxWriteRule .queryRssi s 6 (fun u => { u with upc := .qr4, tmr := 0 })) ∧
    (s.upc = .qr4 → DelayRule .queryRssi s s.par.tQrssi { s with upc := .qr5, tmr := 0, got := 0 }) ∧
    (s.upc = .qr5 → RxReadRule .queryRssi s 0x058 5 (fun u => { u with upc := .qr6 })) ∧
    (s.upc = .qr6 →
      (s.rcount ≠ 5#16 → exec .queryRssi s = .next (failed s 1#4)) ∧
      (s.rcount = 5#16 →
        exec .queryRssi s =
          .next (succeeded { s with noise := s.mem.read 0x05B, lastRssi := s.mem.read 0x05C })))

/-- R231: the whole of a SEND n where AUX, if there is one, reads ready: the first w bytes of PAYLOAD went out with the
mode code on the pins (none for n = 0, with no answer awaited), and OK = 1 exactly where w = n. Nothing else changes
but what acceptance clears; what RXQ holds is left there. -/
def Obligations.SendRunsToTheEnd : Prop :=
  ∀ (s : State) (n w : BitVec 16) (rest : List Move), s.Inv → s.busy = false → s.par.Reachable →
    (s.par.hasAux = true → s.aux = s.par.auxReadyLevel) →
    n.toNat ≤ s.par.payloadMax → w.toNat ≤ n.toNat →
    s.agenda = writeCmd (.send n) :: ((if n = 0#16 then [.block] else txMoves w) ++ busyMoves s.par ++ [.block] ++
      rest) →
    ∃ k t, Sys2Proof.core.run k s = .next t ∧
      t = { (if w = n then succeeded s else failed s 1#4) with
            agenda := rest, cmdlat := encode (.send n), auxTo := false, drainTo := false, wcount := w, rcount := 0,
            tmr := t.tmr,
            txlog := s.txlog ++ (List.range w.toNat).map (fun k => (s.mem.read (0x100 + k), s.m1 ++ s.m0)) }

/-- R232: the whole of a RECEIVE n that begins with no byte queued and finds AUX, if there is one, ready (bytes queued
before it, which R230 counts as payload, are ReceiveSteps' matter): the bytes that came stand in PAYLOAD, and
OK = 1 exactly where n of them did; the RSSI byte is taken, and RSSI_VALID is 1, exactly where F.RSSI_BYTE_EN = 1 and
the byte came. -/
def Obligations.ReceiveRunsToTheEnd : Prop :=
  ∀ (s : State) (n : BitVec 16) (reply : List Byte) (rssi : Option Byte) (rest : List Move), s.Inv → s.busy = false →
    s.par.Reachable → s.Quiet → n.toNat ≤ s.par.payloadMax → reply.length ≤ n.toNat →
    s.agenda = writeCmd (.receive n) :: ([.block] ++ rxMoves s.par n.toNat reply ++ rssiMoves s.img.rssiByteEn rssi ++
      [.block] ++ busyMoves s.par ++ [.block] ++ rest) →
    ∃ k t, Sys2Proof.core.run k s = .next t ∧
      t = { (if reply.length = n.toNat then succeeded s else failed s 1#4) with
            agenda := rest, cmdlat := encode (.receive n), auxTo := false, drainTo := false, wcount := 0,
            rcount := BitVec.ofNat 16 reply.length, tmr := t.tmr, got := t.got, wto := t.wto, mem := t.mem,
            rssiRx := (if s.img.rssiByteEn = 1#1 then rssi.getD s.rssiRx else s.rssiRx),
            rssiValid := (s.img.rssiByteEn == 1#1 && rssi.isSome) } ∧
      (∀ k, k < reply.length → t.mem.read (0x100 + k) = (reply[k]?).getD 0) ∧
      (∀ a, ¬ (0x100 ≤ a ∧ a < 0x100 + reply.length) → t.mem.read a = s.mem.read a)

/-- R233: the whole of a QUERY_RSSI whose precondition holds: the RSSI-query command went out with mode code 0 and
stands in XBUF, the reply stands in RBUF, whose bytes past it are as before, and OK = 1 exactly where five bytes came, whatever count went out; only then
the samples are taken, from reply offsets 3 and 4. -/
def Obligations.QueryRssiRunsToTheEnd : Prop :=
  ∀ (s : State) (w : BitVec 16) (reply : List Byte) (rest : List Move), s.Inv → s.busy = false →
    s.par.Reachable → s.Quiet → s.img.ambNoiseEn = 1#1 → s.lastMode = 0#3 → w.toNat ≤ 6 → reply.length ≤ 5 →
    s.agenda = writeCmd .queryRssi :: ([.block, .block] ++ txMoves w ++ (ticks s.par.tQrssi ++ [.block]) ++
      rxMoves s.par 5 reply ++ [.block] ++ rest) →
    ∃ k t, Sys2Proof.core.run k s = .next t ∧
      t = { (if reply.length = 5 then succeeded s else failed s 1#4) with
            agenda := rest, cmdlat := encode .queryRssi, auxTo := false, drainTo := false, wcount := w,
            rcount := BitVec.ofNat 16 reply.length, tmr := t.tmr, got := t.got, mem := t.mem,
            noise := (if reply.length = 5 then (reply[3]?).getD 0 else s.noise),
            lastRssi := (if reply.length = 5 then (reply[4]?).getD 0 else s.lastRssi),
            txlog := s.txlog ++
              (([0xC0#8, 0xC1#8, 0xC2#8, 0xC3#8, 0x00#8, 0x02#8] : List Byte).take w.toNat).map
                (fun b => (b, 0#2)) } ∧
      (∀ k, k < reply.length → t.mem.read (0x058 + k) = (reply[k]?).getD 0) ∧
      (∀ k, k < 6 →
        t.mem.read (0x050 + k) = (([0xC0#8, 0xC1#8, 0xC2#8, 0xC3#8, 0x00#8, 0x02#8] : List Byte)[k]?).getD 0) ∧
      (∀ a, ¬ (0x050 ≤ a ∧ a < 0x056) → ¬ (0x058 ≤ a ∧ a < 0x058 + reply.length) → t.mem.read a = s.mem.read a)
end

