-- ==== Sys2Proof/Laws/Decode.lean ====
section
/-! SUPPORT. The fields of an encoded word, and the names behind the ids. -/

namespace Sys2Proof

@[simp] theorem op_enc (op sel : BitVec 8) (data : BitVec 16) : Word.op (enc op sel data) = op := by
  unfold Word.op enc
  rw [BitVec.append_assoc, BitVec.cast_eq, BitVec.extractLsb'_append_eq_left]

@[simp] theorem sel_enc (op sel : BitVec 8) (data : BitVec 16) : Word.sel (enc op sel data) = sel := by
  apply BitVec.eq_of_getLsbD_eq
  intro i hi
  simp only [Word.sel, enc, BitVec.getLsbD_extractLsb', BitVec.getLsbD_append]
  simp [hi]

@[simp] theorem data_enc (op sel : BitVec 8) (data : BitVec 16) : Word.data (enc op sel data) = data := by
  apply BitVec.eq_of_getLsbD_eq
  intro i hi
  simp only [Word.data, enc, BitVec.getLsbD_extractLsb', BitVec.getLsbD_append]
  simp [hi]

/-- A word is the encoding of its own fields. -/
theorem enc_fields (w : Word) : enc (Word.op w) (Word.sel w) (Word.data w) = w := by
  apply BitVec.eq_of_getLsbD_eq
  intro i hi
  simp only [Word.op, Word.sel, Word.data, enc, BitVec.getLsbD_extractLsb', BitVec.getLsbD_append]
  by_cases h1 : i < 16
  · simp [h1]
  · by_cases h2 : i - 16 < 8
    · simp [h1, h2]
      congr 1
      omega
    · simp [h1, h2]
      rw [show 24 + (i - 16 - 8) = i by omega]
      simp
      omega

/-- A mask acts field by field. -/
theorem enc_and (o o' l l' : BitVec 8) (d d' : BitVec 16) :
    enc o l d &&& enc o' l' d' = enc (o &&& o') (l &&& l') (d &&& d') := by
  unfold enc
  rw [BitVec.and_append, BitVec.and_append]

@[simp] theorem Field.ofId_id (f : Field) : Field.ofId f.id = f := by cases f <;> rfl

@[simp] theorem Reg.ofId_id (r : Reg) : Reg.ofId r.id = some r := by cases r <;> rfl

@[simp] theorem Persistence.ofBit_bit (p : Persistence) : Persistence.ofBit p.bit = p := by cases p <;> rfl

end Sys2Proof
end

