-- ==== Sys2Proof/Laws/State.lean ====
section
/-! SUPPORT. One lemma per field per named update of the state, each true by rfl. -/

namespace Sys2Proof.Machine

/-! `State.goto` -/

@[simp] theorem State.goto_par (s : State) (l : Label) : (s.goto l).par = s.par := rfl
@[simp] theorem State.goto_img (s : State) (l : Label) : (s.goto l).img = s.img := rfl
@[simp] theorem State.goto_m0 (s : State) (l : Label) : (s.goto l).m0 = s.m0 := rfl
@[simp] theorem State.goto_m1 (s : State) (l : Label) : (s.goto l).m1 = s.m1 := rfl
@[simp] theorem State.goto_lastMode (s : State) (l : Label) : (s.goto l).lastMode = s.lastMode := rfl
@[simp] theorem State.goto_autobaudEn (s : State) (l : Label) : (s.goto l).autobaudEn = s.autobaudEn := rfl
@[simp] theorem State.goto_curBaud (s : State) (l : Label) : (s.goto l).curBaud = s.curBaud := rfl
@[simp] theorem State.goto_busy (s : State) (l : Label) : (s.goto l).busy = s.busy := rfl
@[simp] theorem State.goto_done (s : State) (l : Label) : (s.goto l).done = s.done := rfl
@[simp] theorem State.goto_ok (s : State) (l : Label) : (s.goto l).ok = s.ok := rfl
@[simp] theorem State.goto_overrun (s : State) (l : Label) : (s.goto l).overrun = s.overrun := rfl
@[simp] theorem State.goto_err (s : State) (l : Label) : (s.goto l).err = s.err := rfl
@[simp] theorem State.goto_auxTo (s : State) (l : Label) : (s.goto l).auxTo = s.auxTo := rfl
@[simp] theorem State.goto_drainTo (s : State) (l : Label) : (s.goto l).drainTo = s.drainTo := rfl
@[simp] theorem State.goto_rssiValid (s : State) (l : Label) : (s.goto l).rssiValid = s.rssiValid := rfl
@[simp] theorem State.goto_result (s : State) (l : Label) : (s.goto l).result = s.result := rfl
@[simp] theorem State.goto_rssiRx (s : State) (l : Label) : (s.goto l).rssiRx = s.rssiRx := rfl
@[simp] theorem State.goto_noise (s : State) (l : Label) : (s.goto l).noise = s.noise := rfl
@[simp] theorem State.goto_lastRssi (s : State) (l : Label) : (s.goto l).lastRssi = s.lastRssi := rfl
@[simp] theorem State.goto_wcount (s : State) (l : Label) : (s.goto l).wcount = s.wcount := rfl
@[simp] theorem State.goto_rcount (s : State) (l : Label) : (s.goto l).rcount = s.rcount := rfl
@[simp] theorem State.goto_mem (s : State) (l : Label) : (s.goto l).mem = s.mem := rfl
@[simp] theorem State.goto_cmdlat (s : State) (l : Label) : (s.goto l).cmdlat = s.cmdlat := rfl
@[simp] theorem State.goto_upc (s : State) (l : Label) : (s.goto l).upc = l := rfl
@[simp] theorem State.goto_ret (s : State) (l : Label) : (s.goto l).ret = s.ret := rfl
@[simp] theorem State.goto_smt (s : State) (l : Label) : (s.goto l).smt = s.smt := rfl
@[simp] theorem State.goto_tmr (s : State) (l : Label) : (s.goto l).tmr = if s.timedAt l then 0 else s.tmr := rfl
@[simp] theorem State.goto_got (s : State) (l : Label) : (s.goto l).got = if l.reads then 0 else s.got := rfl
@[simp] theorem State.goto_txpend (s : State) (l : Label) : (s.goto l).txpend = s.txpend := rfl
@[simp] theorem State.goto_wto (s : State) (l : Label) : (s.goto l).wto = s.wto := rfl
@[simp] theorem State.goto_txAns (s : State) (l : Label) : (s.goto l).txAns = s.txAns := rfl
@[simp] theorem State.goto_rxq (s : State) (l : Label) : (s.goto l).rxq = s.rxq := rfl
@[simp] theorem State.goto_aux (s : State) (l : Label) : (s.goto l).aux = s.aux := rfl
@[simp] theorem State.goto_txlog (s : State) (l : Label) : (s.goto l).txlog = s.txlog := rfl
@[simp] theorem State.goto_baudlog (s : State) (l : Label) : (s.goto l).baudlog = s.baudlog := rfl
@[simp] theorem State.goto_baudTaken (s : State) (l : Label) : (s.goto l).baudTaken = s.baudTaken := rfl
@[simp] theorem State.goto_agenda (s : State) (l : Label) : (s.goto l).agenda = s.agenda := rfl
@[simp] theorem State.goto_prog (s : State) (l : Label) : (s.goto l).prog = s.prog := rfl
@[simp] theorem State.goto_busReads (s : State) (l : Label) : (s.goto l).busReads = s.busReads := rfl
@[simp] theorem State.goto_draws (s : State) (l : Label) : (s.goto l).draws = s.draws := rfl

/-! `State.complete` -/

@[simp] theorem State.complete_par (s : State) (ok : Bool) (err : BitVec 4) : (s.complete ok err).par = s.par := rfl
@[simp] theorem State.complete_img (s : State) (ok : Bool) (err : BitVec 4) : (s.complete ok err).img = s.img := rfl
@[simp] theorem State.complete_m0 (s : State) (ok : Bool) (err : BitVec 4) : (s.complete ok err).m0 = s.m0 := rfl
@[simp] theorem State.complete_m1 (s : State) (ok : Bool) (err : BitVec 4) : (s.complete ok err).m1 = s.m1 := rfl
@[simp] theorem State.complete_lastMode (s : State) (ok : Bool) (err : BitVec 4) : (s.complete ok err).lastMode = s.lastMode := rfl
@[simp] theorem State.complete_autobaudEn (s : State) (ok : Bool) (err : BitVec 4) : (s.complete ok err).autobaudEn = s.autobaudEn := rfl
@[simp] theorem State.complete_curBaud (s : State) (ok : Bool) (err : BitVec 4) : (s.complete ok err).curBaud = s.curBaud := rfl
@[simp] theorem State.complete_busy (s : State) (ok : Bool) (err : BitVec 4) : (s.complete ok err).busy = false := rfl
@[simp] theorem State.complete_done (s : State) (ok : Bool) (err : BitVec 4) : (s.complete ok err).done = true := rfl
@[simp] theorem State.complete_ok (s : State) (ok : Bool) (err : BitVec 4) : (s.complete ok err).ok = ok := rfl
@[simp] theorem State.complete_overrun (s : State) (ok : Bool) (err : BitVec 4) : (s.complete ok err).overrun = s.overrun := rfl
@[simp] theorem State.complete_err (s : State) (ok : Bool) (err : BitVec 4) : (s.complete ok err).err = err := rfl
@[simp] theorem State.complete_auxTo (s : State) (ok : Bool) (err : BitVec 4) : (s.complete ok err).auxTo = s.auxTo := rfl
@[simp] theorem State.complete_drainTo (s : State) (ok : Bool) (err : BitVec 4) : (s.complete ok err).drainTo = s.drainTo := rfl
@[simp] theorem State.complete_rssiValid (s : State) (ok : Bool) (err : BitVec 4) : (s.complete ok err).rssiValid = s.rssiValid := rfl
@[simp] theorem State.complete_result (s : State) (ok : Bool) (err : BitVec 4) : (s.complete ok err).result = s.result := rfl
@[simp] theorem State.complete_rssiRx (s : State) (ok : Bool) (err : BitVec 4) : (s.complete ok err).rssiRx = s.rssiRx := rfl
@[simp] theorem State.complete_noise (s : State) (ok : Bool) (err : BitVec 4) : (s.complete ok err).noise = s.noise := rfl
@[simp] theorem State.complete_lastRssi (s : State) (ok : Bool) (err : BitVec 4) : (s.complete ok err).lastRssi = s.lastRssi := rfl
@[simp] theorem State.complete_wcount (s : State) (ok : Bool) (err : BitVec 4) : (s.complete ok err).wcount = s.wcount := rfl
@[simp] theorem State.complete_rcount (s : State) (ok : Bool) (err : BitVec 4) : (s.complete ok err).rcount = s.rcount := rfl
@[simp] theorem State.complete_mem (s : State) (ok : Bool) (err : BitVec 4) : (s.complete ok err).mem = s.mem := rfl
@[simp] theorem State.complete_cmdlat (s : State) (ok : Bool) (err : BitVec 4) : (s.complete ok err).cmdlat = s.cmdlat := rfl
@[simp] theorem State.complete_upc (s : State) (ok : Bool) (err : BitVec 4) : (s.complete ok err).upc = .idle := rfl
@[simp] theorem State.complete_ret (s : State) (ok : Bool) (err : BitVec 4) : (s.complete ok err).ret = none := rfl
@[simp] theorem State.complete_smt (s : State) (ok : Bool) (err : BitVec 4) : (s.complete ok err).smt = s.smt := rfl
@[simp] theorem State.complete_tmr (s : State) (ok : Bool) (err : BitVec 4) : (s.complete ok err).tmr = s.tmr := rfl
@[simp] theorem State.complete_got (s : State) (ok : Bool) (err : BitVec 4) : (s.complete ok err).got = s.got := rfl
@[simp] theorem State.complete_txpend (s : State) (ok : Bool) (err : BitVec 4) : (s.complete ok err).txpend = s.txpend := rfl
@[simp] theorem State.complete_wto (s : State) (ok : Bool) (err : BitVec 4) : (s.complete ok err).wto = s.wto := rfl
@[simp] theorem State.complete_txAns (s : State) (ok : Bool) (err : BitVec 4) : (s.complete ok err).txAns = s.txAns := rfl
@[simp] theorem State.complete_rxq (s : State) (ok : Bool) (err : BitVec 4) : (s.complete ok err).rxq = s.rxq := rfl
@[simp] theorem State.complete_aux (s : State) (ok : Bool) (err : BitVec 4) : (s.complete ok err).aux = s.aux := rfl
@[simp] theorem State.complete_txlog (s : State) (ok : Bool) (err : BitVec 4) : (s.complete ok err).txlog = s.txlog := rfl
@[simp] theorem State.complete_baudlog (s : State) (ok : Bool) (err : BitVec 4) : (s.complete ok err).baudlog = s.baudlog := rfl
@[simp] theorem State.complete_baudTaken (s : State) (ok : Bool) (err : BitVec 4) : (s.complete ok err).baudTaken = s.baudTaken := rfl
@[simp] theorem State.complete_agenda (s : State) (ok : Bool) (err : BitVec 4) : (s.complete ok err).agenda = s.agenda := rfl
@[simp] theorem State.complete_prog (s : State) (ok : Bool) (err : BitVec 4) : (s.complete ok err).prog = s.prog := rfl
@[simp] theorem State.complete_busReads (s : State) (ok : Bool) (err : BitVec 4) : (s.complete ok err).busReads = s.busReads := rfl
@[simp] theorem State.complete_draws (s : State) (ok : Bool) (err : BitVec 4) : (s.complete ok err).draws = s.draws := rfl

/-! `State.succeed` -/

@[simp] theorem State.succeed_par (s : State) : s.succeed.par = s.par := rfl
@[simp] theorem State.succeed_img (s : State) : s.succeed.img = s.img := rfl
@[simp] theorem State.succeed_m0 (s : State) : s.succeed.m0 = s.m0 := rfl
@[simp] theorem State.succeed_m1 (s : State) : s.succeed.m1 = s.m1 := rfl
@[simp] theorem State.succeed_lastMode (s : State) : s.succeed.lastMode = s.lastMode := rfl
@[simp] theorem State.succeed_autobaudEn (s : State) : s.succeed.autobaudEn = s.autobaudEn := rfl
@[simp] theorem State.succeed_curBaud (s : State) : s.succeed.curBaud = s.curBaud := rfl
@[simp] theorem State.succeed_busy (s : State) : s.succeed.busy = false := rfl
@[simp] theorem State.succeed_done (s : State) : s.succeed.done = true := rfl
@[simp] theorem State.succeed_ok (s : State) : s.succeed.ok = true := rfl
@[simp] theorem State.succeed_overrun (s : State) : s.succeed.overrun = s.overrun := rfl
@[simp] theorem State.succeed_err (s : State) : s.succeed.err = 0#4 := rfl
@[simp] theorem State.succeed_auxTo (s : State) : s.succeed.auxTo = s.auxTo := rfl
@[simp] theorem State.succeed_drainTo (s : State) : s.succeed.drainTo = s.drainTo := rfl
@[simp] theorem State.succeed_rssiValid (s : State) : s.succeed.rssiValid = s.rssiValid := rfl
@[simp] theorem State.succeed_result (s : State) : s.succeed.result = s.result := rfl
@[simp] theorem State.succeed_rssiRx (s : State) : s.succeed.rssiRx = s.rssiRx := rfl
@[simp] theorem State.succeed_noise (s : State) : s.succeed.noise = s.noise := rfl
@[simp] theorem State.succeed_lastRssi (s : State) : s.succeed.lastRssi = s.lastRssi := rfl
@[simp] theorem State.succeed_wcount (s : State) : s.succeed.wcount = s.wcount := rfl
@[simp] theorem State.succeed_rcount (s : State) : s.succeed.rcount = s.rcount := rfl
@[simp] theorem State.succeed_mem (s : State) : s.succeed.mem = s.mem := rfl
@[simp] theorem State.succeed_cmdlat (s : State) : s.succeed.cmdlat = s.cmdlat := rfl
@[simp] theorem State.succeed_upc (s : State) : s.succeed.upc = .idle := rfl
@[simp] theorem State.succeed_ret (s : State) : s.succeed.ret = none := rfl
@[simp] theorem State.succeed_smt (s : State) : s.succeed.smt = s.smt := rfl
@[simp] theorem State.succeed_tmr (s : State) : s.succeed.tmr = s.tmr := rfl
@[simp] theorem State.succeed_got (s : State) : s.succeed.got = s.got := rfl
@[simp] theorem State.succeed_txpend (s : State) : s.succeed.txpend = s.txpend := rfl
@[simp] theorem State.succeed_wto (s : State) : s.succeed.wto = s.wto := rfl
@[simp] theorem State.succeed_txAns (s : State) : s.succeed.txAns = s.txAns := rfl
@[simp] theorem State.succeed_rxq (s : State) : s.succeed.rxq = s.rxq := rfl
@[simp] theorem State.succeed_aux (s : State) : s.succeed.aux = s.aux := rfl
@[simp] theorem State.succeed_txlog (s : State) : s.succeed.txlog = s.txlog := rfl
@[simp] theorem State.succeed_baudlog (s : State) : s.succeed.baudlog = s.baudlog := rfl
@[simp] theorem State.succeed_baudTaken (s : State) : s.succeed.baudTaken = s.baudTaken := rfl
@[simp] theorem State.succeed_agenda (s : State) : s.succeed.agenda = s.agenda := rfl
@[simp] theorem State.succeed_prog (s : State) : s.succeed.prog = s.prog := rfl
@[simp] theorem State.succeed_busReads (s : State) : s.succeed.busReads = s.busReads := rfl
@[simp] theorem State.succeed_draws (s : State) : s.succeed.draws = s.draws := rfl

/-! `State.raise` -/

@[simp] theorem State.raise_par (s : State) (e : ErrCode) : (s.raise e).par = s.par := rfl
@[simp] theorem State.raise_img (s : State) (e : ErrCode) : (s.raise e).img = s.img := rfl
@[simp] theorem State.raise_m0 (s : State) (e : ErrCode) : (s.raise e).m0 = s.m0 := rfl
@[simp] theorem State.raise_m1 (s : State) (e : ErrCode) : (s.raise e).m1 = s.m1 := rfl
@[simp] theorem State.raise_lastMode (s : State) (e : ErrCode) : (s.raise e).lastMode = s.lastMode := rfl
@[simp] theorem State.raise_autobaudEn (s : State) (e : ErrCode) : (s.raise e).autobaudEn = s.autobaudEn := rfl
@[simp] theorem State.raise_curBaud (s : State) (e : ErrCode) : (s.raise e).curBaud = s.curBaud := rfl
@[simp] theorem State.raise_busy (s : State) (e : ErrCode) : (s.raise e).busy = false := rfl
@[simp] theorem State.raise_done (s : State) (e : ErrCode) : (s.raise e).done = true := rfl
@[simp] theorem State.raise_ok (s : State) (e : ErrCode) : (s.raise e).ok = false := rfl
@[simp] theorem State.raise_overrun (s : State) (e : ErrCode) : (s.raise e).overrun = s.overrun := rfl
@[simp] theorem State.raise_err (s : State) (e : ErrCode) : (s.raise e).err = e.bits := rfl
@[simp] theorem State.raise_auxTo (s : State) (e : ErrCode) : (s.raise e).auxTo = s.auxTo := rfl
@[simp] theorem State.raise_drainTo (s : State) (e : ErrCode) : (s.raise e).drainTo = s.drainTo := rfl
@[simp] theorem State.raise_rssiValid (s : State) (e : ErrCode) : (s.raise e).rssiValid = s.rssiValid := rfl
@[simp] theorem State.raise_result (s : State) (e : ErrCode) : (s.raise e).result = s.result := rfl
@[simp] theorem State.raise_rssiRx (s : State) (e : ErrCode) : (s.raise e).rssiRx = s.rssiRx := rfl
@[simp] theorem State.raise_noise (s : State) (e : ErrCode) : (s.raise e).noise = s.noise := rfl
@[simp] theorem State.raise_lastRssi (s : State) (e : ErrCode) : (s.raise e).lastRssi = s.lastRssi := rfl
@[simp] theorem State.raise_wcount (s : State) (e : ErrCode) : (s.raise e).wcount = s.wcount := rfl
@[simp] theorem State.raise_rcount (s : State) (e : ErrCode) : (s.raise e).rcount = s.rcount := rfl
@[simp] theorem State.raise_mem (s : State) (e : ErrCode) : (s.raise e).mem = s.mem := rfl
@[simp] theorem State.raise_cmdlat (s : State) (e : ErrCode) : (s.raise e).cmdlat = s.cmdlat := rfl
@[simp] theorem State.raise_upc (s : State) (e : ErrCode) : (s.raise e).upc = .idle := rfl
@[simp] theorem State.raise_ret (s : State) (e : ErrCode) : (s.raise e).ret = none := rfl
@[simp] theorem State.raise_smt (s : State) (e : ErrCode) : (s.raise e).smt = s.smt := rfl
@[simp] theorem State.raise_tmr (s : State) (e : ErrCode) : (s.raise e).tmr = s.tmr := rfl
@[simp] theorem State.raise_got (s : State) (e : ErrCode) : (s.raise e).got = s.got := rfl
@[simp] theorem State.raise_txpend (s : State) (e : ErrCode) : (s.raise e).txpend = s.txpend := rfl
@[simp] theorem State.raise_wto (s : State) (e : ErrCode) : (s.raise e).wto = s.wto := rfl
@[simp] theorem State.raise_txAns (s : State) (e : ErrCode) : (s.raise e).txAns = s.txAns := rfl
@[simp] theorem State.raise_rxq (s : State) (e : ErrCode) : (s.raise e).rxq = s.rxq := rfl
@[simp] theorem State.raise_aux (s : State) (e : ErrCode) : (s.raise e).aux = s.aux := rfl
@[simp] theorem State.raise_txlog (s : State) (e : ErrCode) : (s.raise e).txlog = s.txlog := rfl
@[simp] theorem State.raise_baudlog (s : State) (e : ErrCode) : (s.raise e).baudlog = s.baudlog := rfl
@[simp] theorem State.raise_baudTaken (s : State) (e : ErrCode) : (s.raise e).baudTaken = s.baudTaken := rfl
@[simp] theorem State.raise_agenda (s : State) (e : ErrCode) : (s.raise e).agenda = s.agenda := rfl
@[simp] theorem State.raise_prog (s : State) (e : ErrCode) : (s.raise e).prog = s.prog := rfl
@[simp] theorem State.raise_busReads (s : State) (e : ErrCode) : (s.raise e).busReads = s.busReads := rfl
@[simp] theorem State.raise_draws (s : State) (e : ErrCode) : (s.raise e).draws = s.draws := rfl

/-! `State.pins` -/

@[simp] theorem State.pins_par (s : State) (mc : BitVec 2) : (s.pins mc).par = s.par := rfl
@[simp] theorem State.pins_img (s : State) (mc : BitVec 2) : (s.pins mc).img = s.img := rfl
@[simp] theorem State.pins_m0 (s : State) (mc : BitVec 2) : (s.pins mc).m0 = mc.extractLsb' 0 1 := rfl
@[simp] theorem State.pins_m1 (s : State) (mc : BitVec 2) : (s.pins mc).m1 = mc.extractLsb' 1 1 := rfl
@[simp] theorem State.pins_lastMode (s : State) (mc : BitVec 2) : (s.pins mc).lastMode = s.lastMode := rfl
@[simp] theorem State.pins_autobaudEn (s : State) (mc : BitVec 2) : (s.pins mc).autobaudEn = s.autobaudEn := rfl
@[simp] theorem State.pins_curBaud (s : State) (mc : BitVec 2) : (s.pins mc).curBaud = s.curBaud := rfl
@[simp] theorem State.pins_busy (s : State) (mc : BitVec 2) : (s.pins mc).busy = s.busy := rfl
@[simp] theorem State.pins_done (s : State) (mc : BitVec 2) : (s.pins mc).done = s.done := rfl
@[simp] theorem State.pins_ok (s : State) (mc : BitVec 2) : (s.pins mc).ok = s.ok := rfl
@[simp] theorem State.pins_overrun (s : State) (mc : BitVec 2) : (s.pins mc).overrun = s.overrun := rfl
@[simp] theorem State.pins_err (s : State) (mc : BitVec 2) : (s.pins mc).err = s.err := rfl
@[simp] theorem State.pins_auxTo (s : State) (mc : BitVec 2) : (s.pins mc).auxTo = s.auxTo := rfl
@[simp] theorem State.pins_drainTo (s : State) (mc : BitVec 2) : (s.pins mc).drainTo = s.drainTo := rfl
@[simp] theorem State.pins_rssiValid (s : State) (mc : BitVec 2) : (s.pins mc).rssiValid = s.rssiValid := rfl
@[simp] theorem State.pins_result (s : State) (mc : BitVec 2) : (s.pins mc).result = s.result := rfl
@[simp] theorem State.pins_rssiRx (s : State) (mc : BitVec 2) : (s.pins mc).rssiRx = s.rssiRx := rfl
@[simp] theorem State.pins_noise (s : State) (mc : BitVec 2) : (s.pins mc).noise = s.noise := rfl
@[simp] theorem State.pins_lastRssi (s : State) (mc : BitVec 2) : (s.pins mc).lastRssi = s.lastRssi := rfl
@[simp] theorem State.pins_wcount (s : State) (mc : BitVec 2) : (s.pins mc).wcount = s.wcount := rfl
@[simp] theorem State.pins_rcount (s : State) (mc : BitVec 2) : (s.pins mc).rcount = s.rcount := rfl
@[simp] theorem State.pins_mem (s : State) (mc : BitVec 2) : (s.pins mc).mem = s.mem := rfl
@[simp] theorem State.pins_cmdlat (s : State) (mc : BitVec 2) : (s.pins mc).cmdlat = s.cmdlat := rfl
@[simp] theorem State.pins_upc (s : State) (mc : BitVec 2) : (s.pins mc).upc = s.upc := rfl
@[simp] theorem State.pins_ret (s : State) (mc : BitVec 2) : (s.pins mc).ret = s.ret := rfl
@[simp] theorem State.pins_smt (s : State) (mc : BitVec 2) : (s.pins mc).smt = s.smt := rfl
@[simp] theorem State.pins_tmr (s : State) (mc : BitVec 2) : (s.pins mc).tmr = s.tmr := rfl
@[simp] theorem State.pins_got (s : State) (mc : BitVec 2) : (s.pins mc).got = s.got := rfl
@[simp] theorem State.pins_txpend (s : State) (mc : BitVec 2) : (s.pins mc).txpend = s.txpend := rfl
@[simp] theorem State.pins_wto (s : State) (mc : BitVec 2) : (s.pins mc).wto = s.wto := rfl
@[simp] theorem State.pins_txAns (s : State) (mc : BitVec 2) : (s.pins mc).txAns = s.txAns := rfl
@[simp] theorem State.pins_rxq (s : State) (mc : BitVec 2) : (s.pins mc).rxq = s.rxq := rfl
@[simp] theorem State.pins_aux (s : State) (mc : BitVec 2) : (s.pins mc).aux = s.aux := rfl
@[simp] theorem State.pins_txlog (s : State) (mc : BitVec 2) : (s.pins mc).txlog = s.txlog := rfl
@[simp] theorem State.pins_baudlog (s : State) (mc : BitVec 2) : (s.pins mc).baudlog = s.baudlog := rfl
@[simp] theorem State.pins_baudTaken (s : State) (mc : BitVec 2) : (s.pins mc).baudTaken = s.baudTaken := rfl
@[simp] theorem State.pins_agenda (s : State) (mc : BitVec 2) : (s.pins mc).agenda = s.agenda := rfl
@[simp] theorem State.pins_prog (s : State) (mc : BitVec 2) : (s.pins mc).prog = s.prog := rfl
@[simp] theorem State.pins_busReads (s : State) (mc : BitVec 2) : (s.pins mc).busReads = s.busReads := rfl
@[simp] theorem State.pins_draws (s : State) (mc : BitVec 2) : (s.pins mc).draws = s.draws := rfl

/-! `State.baudReq` -/

@[simp] theorem State.baudReq_par (s : State) (rate : Word) : (s.baudReq rate).par = s.par := rfl
@[simp] theorem State.baudReq_img (s : State) (rate : Word) : (s.baudReq rate).img = s.img := rfl
@[simp] theorem State.baudReq_m0 (s : State) (rate : Word) : (s.baudReq rate).m0 = s.m0 := rfl
@[simp] theorem State.baudReq_m1 (s : State) (rate : Word) : (s.baudReq rate).m1 = s.m1 := rfl
@[simp] theorem State.baudReq_lastMode (s : State) (rate : Word) : (s.baudReq rate).lastMode = s.lastMode := rfl
@[simp] theorem State.baudReq_autobaudEn (s : State) (rate : Word) : (s.baudReq rate).autobaudEn = s.autobaudEn := rfl
@[simp] theorem State.baudReq_curBaud (s : State) (rate : Word) : (s.baudReq rate).curBaud = rate := rfl
@[simp] theorem State.baudReq_busy (s : State) (rate : Word) : (s.baudReq rate).busy = s.busy := rfl
@[simp] theorem State.baudReq_done (s : State) (rate : Word) : (s.baudReq rate).done = s.done := rfl
@[simp] theorem State.baudReq_ok (s : State) (rate : Word) : (s.baudReq rate).ok = s.ok := rfl
@[simp] theorem State.baudReq_overrun (s : State) (rate : Word) : (s.baudReq rate).overrun = s.overrun := rfl
@[simp] theorem State.baudReq_err (s : State) (rate : Word) : (s.baudReq rate).err = s.err := rfl
@[simp] theorem State.baudReq_auxTo (s : State) (rate : Word) : (s.baudReq rate).auxTo = s.auxTo := rfl
@[simp] theorem State.baudReq_drainTo (s : State) (rate : Word) : (s.baudReq rate).drainTo = s.drainTo := rfl
@[simp] theorem State.baudReq_rssiValid (s : State) (rate : Word) : (s.baudReq rate).rssiValid = s.rssiValid := rfl
@[simp] theorem State.baudReq_result (s : State) (rate : Word) : (s.baudReq rate).result = s.result := rfl
@[simp] theorem State.baudReq_rssiRx (s : State) (rate : Word) : (s.baudReq rate).rssiRx = s.rssiRx := rfl
@[simp] theorem State.baudReq_noise (s : State) (rate : Word) : (s.baudReq rate).noise = s.noise := rfl
@[simp] theorem State.baudReq_lastRssi (s : State) (rate : Word) : (s.baudReq rate).lastRssi = s.lastRssi := rfl
@[simp] theorem State.baudReq_wcount (s : State) (rate : Word) : (s.baudReq rate).wcount = s.wcount := rfl
@[simp] theorem State.baudReq_rcount (s : State) (rate : Word) : (s.baudReq rate).rcount = s.rcount := rfl
@[simp] theorem State.baudReq_mem (s : State) (rate : Word) : (s.baudReq rate).mem = s.mem := rfl
@[simp] theorem State.baudReq_cmdlat (s : State) (rate : Word) : (s.baudReq rate).cmdlat = s.cmdlat := rfl
@[simp] theorem State.baudReq_upc (s : State) (rate : Word) : (s.baudReq rate).upc = s.upc := rfl
@[simp] theorem State.baudReq_ret (s : State) (rate : Word) : (s.baudReq rate).ret = s.ret := rfl
@[simp] theorem State.baudReq_smt (s : State) (rate : Word) : (s.baudReq rate).smt = s.smt := rfl
@[simp] theorem State.baudReq_tmr (s : State) (rate : Word) : (s.baudReq rate).tmr = s.tmr := rfl
@[simp] theorem State.baudReq_got (s : State) (rate : Word) : (s.baudReq rate).got = s.got := rfl
@[simp] theorem State.baudReq_txpend (s : State) (rate : Word) : (s.baudReq rate).txpend = s.txpend := rfl
@[simp] theorem State.baudReq_wto (s : State) (rate : Word) : (s.baudReq rate).wto = s.wto := rfl
@[simp] theorem State.baudReq_txAns (s : State) (rate : Word) : (s.baudReq rate).txAns = s.txAns := rfl
@[simp] theorem State.baudReq_rxq (s : State) (rate : Word) : (s.baudReq rate).rxq = s.rxq := rfl
@[simp] theorem State.baudReq_aux (s : State) (rate : Word) : (s.baudReq rate).aux = s.aux := rfl
@[simp] theorem State.baudReq_txlog (s : State) (rate : Word) : (s.baudReq rate).txlog = s.txlog := rfl
@[simp] theorem State.baudReq_baudlog (s : State) (rate : Word) : (s.baudReq rate).baudlog = s.baudlog ++ [rate] := rfl
@[simp] theorem State.baudReq_baudTaken (s : State) (rate : Word) : (s.baudReq rate).baudTaken = s.baudTaken := rfl
@[simp] theorem State.baudReq_agenda (s : State) (rate : Word) : (s.baudReq rate).agenda = s.agenda := rfl
@[simp] theorem State.baudReq_prog (s : State) (rate : Word) : (s.baudReq rate).prog = s.prog := rfl
@[simp] theorem State.baudReq_busReads (s : State) (rate : Word) : (s.baudReq rate).busReads = s.busReads := rfl
@[simp] theorem State.baudReq_draws (s : State) (rate : Word) : (s.baudReq rate).draws = s.draws := rfl

/-! `State.callSetMode` -/

@[simp] theorem State.callSetMode_par (s : State) (mc : BitVec 2) (next : Label) : (s.callSetMode mc next).par = s.par := rfl
@[simp] theorem State.callSetMode_img (s : State) (mc : BitVec 2) (next : Label) : (s.callSetMode mc next).img = s.img := rfl
@[simp] theorem State.callSetMode_m0 (s : State) (mc : BitVec 2) (next : Label) : (s.callSetMode mc next).m0 = s.m0 := rfl
@[simp] theorem State.callSetMode_m1 (s : State) (mc : BitVec 2) (next : Label) : (s.callSetMode mc next).m1 = s.m1 := rfl
@[simp] theorem State.callSetMode_lastMode (s : State) (mc : BitVec 2) (next : Label) : (s.callSetMode mc next).lastMode = s.lastMode := rfl
@[simp] theorem State.callSetMode_autobaudEn (s : State) (mc : BitVec 2) (next : Label) : (s.callSetMode mc next).autobaudEn = s.autobaudEn := rfl
@[simp] theorem State.callSetMode_curBaud (s : State) (mc : BitVec 2) (next : Label) : (s.callSetMode mc next).curBaud = s.curBaud := rfl
@[simp] theorem State.callSetMode_busy (s : State) (mc : BitVec 2) (next : Label) : (s.callSetMode mc next).busy = s.busy := rfl
@[simp] theorem State.callSetMode_done (s : State) (mc : BitVec 2) (next : Label) : (s.callSetMode mc next).done = s.done := rfl
@[simp] theorem State.callSetMode_ok (s : State) (mc : BitVec 2) (next : Label) : (s.callSetMode mc next).ok = s.ok := rfl
@[simp] theorem State.callSetMode_overrun (s : State) (mc : BitVec 2) (next : Label) : (s.callSetMode mc next).overrun = s.overrun := rfl
@[simp] theorem State.callSetMode_err (s : State) (mc : BitVec 2) (next : Label) : (s.callSetMode mc next).err = s.err := rfl
@[simp] theorem State.callSetMode_auxTo (s : State) (mc : BitVec 2) (next : Label) : (s.callSetMode mc next).auxTo = s.auxTo := rfl
@[simp] theorem State.callSetMode_drainTo (s : State) (mc : BitVec 2) (next : Label) : (s.callSetMode mc next).drainTo = s.drainTo := rfl
@[simp] theorem State.callSetMode_rssiValid (s : State) (mc : BitVec 2) (next : Label) : (s.callSetMode mc next).rssiValid = s.rssiValid := rfl
@[simp] theorem State.callSetMode_result (s : State) (mc : BitVec 2) (next : Label) : (s.callSetMode mc next).result = s.result := rfl
@[simp] theorem State.callSetMode_rssiRx (s : State) (mc : BitVec 2) (next : Label) : (s.callSetMode mc next).rssiRx = s.rssiRx := rfl
@[simp] theorem State.callSetMode_noise (s : State) (mc : BitVec 2) (next : Label) : (s.callSetMode mc next).noise = s.noise := rfl
@[simp] theorem State.callSetMode_lastRssi (s : State) (mc : BitVec 2) (next : Label) : (s.callSetMode mc next).lastRssi = s.lastRssi := rfl
@[simp] theorem State.callSetMode_wcount (s : State) (mc : BitVec 2) (next : Label) : (s.callSetMode mc next).wcount = s.wcount := rfl
@[simp] theorem State.callSetMode_rcount (s : State) (mc : BitVec 2) (next : Label) : (s.callSetMode mc next).rcount = s.rcount := rfl
@[simp] theorem State.callSetMode_mem (s : State) (mc : BitVec 2) (next : Label) : (s.callSetMode mc next).mem = s.mem := rfl
@[simp] theorem State.callSetMode_cmdlat (s : State) (mc : BitVec 2) (next : Label) : (s.callSetMode mc next).cmdlat = s.cmdlat := rfl
@[simp] theorem State.callSetMode_upc (s : State) (mc : BitVec 2) (next : Label) : (s.callSetMode mc next).upc = .sm1 := rfl
@[simp] theorem State.callSetMode_ret (s : State) (mc : BitVec 2) (next : Label) : (s.callSetMode mc next).ret = some next := rfl
@[simp] theorem State.callSetMode_smt (s : State) (mc : BitVec 2) (next : Label) : (s.callSetMode mc next).smt = mc := rfl
@[simp] theorem State.callSetMode_tmr (s : State) (mc : BitVec 2) (next : Label) : (s.callSetMode mc next).tmr = 0 := rfl
@[simp] theorem State.callSetMode_got (s : State) (mc : BitVec 2) (next : Label) : (s.callSetMode mc next).got = s.got := rfl
@[simp] theorem State.callSetMode_txpend (s : State) (mc : BitVec 2) (next : Label) : (s.callSetMode mc next).txpend = s.txpend := rfl
@[simp] theorem State.callSetMode_wto (s : State) (mc : BitVec 2) (next : Label) : (s.callSetMode mc next).wto = s.wto := rfl
@[simp] theorem State.callSetMode_txAns (s : State) (mc : BitVec 2) (next : Label) : (s.callSetMode mc next).txAns = s.txAns := rfl
@[simp] theorem State.callSetMode_rxq (s : State) (mc : BitVec 2) (next : Label) : (s.callSetMode mc next).rxq = s.rxq := rfl
@[simp] theorem State.callSetMode_aux (s : State) (mc : BitVec 2) (next : Label) : (s.callSetMode mc next).aux = s.aux := rfl
@[simp] theorem State.callSetMode_txlog (s : State) (mc : BitVec 2) (next : Label) : (s.callSetMode mc next).txlog = s.txlog := rfl
@[simp] theorem State.callSetMode_baudlog (s : State) (mc : BitVec 2) (next : Label) : (s.callSetMode mc next).baudlog = s.baudlog := rfl
@[simp] theorem State.callSetMode_baudTaken (s : State) (mc : BitVec 2) (next : Label) : (s.callSetMode mc next).baudTaken = s.baudTaken := rfl
@[simp] theorem State.callSetMode_agenda (s : State) (mc : BitVec 2) (next : Label) : (s.callSetMode mc next).agenda = s.agenda := rfl
@[simp] theorem State.callSetMode_prog (s : State) (mc : BitVec 2) (next : Label) : (s.callSetMode mc next).prog = s.prog := rfl
@[simp] theorem State.callSetMode_busReads (s : State) (mc : BitVec 2) (next : Label) : (s.callSetMode mc next).busReads = s.busReads := rfl
@[simp] theorem State.callSetMode_draws (s : State) (mc : BitVec 2) (next : Label) : (s.callSetMode mc next).draws = s.draws := rfl

/-! `State.stageFrame` -/

@[simp] theorem State.stageFrame_par (s : State) (c : Byte) : (s.stageFrame c).par = s.par := rfl
@[simp] theorem State.stageFrame_img (s : State) (c : Byte) : (s.stageFrame c).img = s.img := rfl
@[simp] theorem State.stageFrame_m0 (s : State) (c : Byte) : (s.stageFrame c).m0 = s.m0 := rfl
@[simp] theorem State.stageFrame_m1 (s : State) (c : Byte) : (s.stageFrame c).m1 = s.m1 := rfl
@[simp] theorem State.stageFrame_lastMode (s : State) (c : Byte) : (s.stageFrame c).lastMode = s.lastMode := rfl
@[simp] theorem State.stageFrame_autobaudEn (s : State) (c : Byte) : (s.stageFrame c).autobaudEn = s.autobaudEn := rfl
@[simp] theorem State.stageFrame_curBaud (s : State) (c : Byte) : (s.stageFrame c).curBaud = s.curBaud := rfl
@[simp] theorem State.stageFrame_busy (s : State) (c : Byte) : (s.stageFrame c).busy = s.busy := rfl
@[simp] theorem State.stageFrame_done (s : State) (c : Byte) : (s.stageFrame c).done = s.done := rfl
@[simp] theorem State.stageFrame_ok (s : State) (c : Byte) : (s.stageFrame c).ok = s.ok := rfl
@[simp] theorem State.stageFrame_overrun (s : State) (c : Byte) : (s.stageFrame c).overrun = s.overrun := rfl
@[simp] theorem State.stageFrame_err (s : State) (c : Byte) : (s.stageFrame c).err = s.err := rfl
@[simp] theorem State.stageFrame_auxTo (s : State) (c : Byte) : (s.stageFrame c).auxTo = s.auxTo := rfl
@[simp] theorem State.stageFrame_drainTo (s : State) (c : Byte) : (s.stageFrame c).drainTo = s.drainTo := rfl
@[simp] theorem State.stageFrame_rssiValid (s : State) (c : Byte) : (s.stageFrame c).rssiValid = s.rssiValid := rfl
@[simp] theorem State.stageFrame_result (s : State) (c : Byte) : (s.stageFrame c).result = s.result := rfl
@[simp] theorem State.stageFrame_rssiRx (s : State) (c : Byte) : (s.stageFrame c).rssiRx = s.rssiRx := rfl
@[simp] theorem State.stageFrame_noise (s : State) (c : Byte) : (s.stageFrame c).noise = s.noise := rfl
@[simp] theorem State.stageFrame_lastRssi (s : State) (c : Byte) : (s.stageFrame c).lastRssi = s.lastRssi := rfl
@[simp] theorem State.stageFrame_wcount (s : State) (c : Byte) : (s.stageFrame c).wcount = s.wcount := rfl
@[simp] theorem State.stageFrame_rcount (s : State) (c : Byte) : (s.stageFrame c).rcount = s.rcount := rfl
@[simp] theorem State.stageFrame_mem (s : State) (c : Byte) : (s.stageFrame c).mem = s.mem.writeBytes frameBase (c :: Config.cfgStartAddr :: 0x06#8 :: s.img.body) := rfl
@[simp] theorem State.stageFrame_cmdlat (s : State) (c : Byte) : (s.stageFrame c).cmdlat = s.cmdlat := rfl
@[simp] theorem State.stageFrame_upc (s : State) (c : Byte) : (s.stageFrame c).upc = s.upc := rfl
@[simp] theorem State.stageFrame_ret (s : State) (c : Byte) : (s.stageFrame c).ret = s.ret := rfl
@[simp] theorem State.stageFrame_smt (s : State) (c : Byte) : (s.stageFrame c).smt = s.smt := rfl
@[simp] theorem State.stageFrame_tmr (s : State) (c : Byte) : (s.stageFrame c).tmr = s.tmr := rfl
@[simp] theorem State.stageFrame_got (s : State) (c : Byte) : (s.stageFrame c).got = s.got := rfl
@[simp] theorem State.stageFrame_txpend (s : State) (c : Byte) : (s.stageFrame c).txpend = s.txpend := rfl
@[simp] theorem State.stageFrame_wto (s : State) (c : Byte) : (s.stageFrame c).wto = s.wto := rfl
@[simp] theorem State.stageFrame_txAns (s : State) (c : Byte) : (s.stageFrame c).txAns = s.txAns := rfl
@[simp] theorem State.stageFrame_rxq (s : State) (c : Byte) : (s.stageFrame c).rxq = s.rxq := rfl
@[simp] theorem State.stageFrame_aux (s : State) (c : Byte) : (s.stageFrame c).aux = s.aux := rfl
@[simp] theorem State.stageFrame_txlog (s : State) (c : Byte) : (s.stageFrame c).txlog = s.txlog := rfl
@[simp] theorem State.stageFrame_baudlog (s : State) (c : Byte) : (s.stageFrame c).baudlog = s.baudlog := rfl
@[simp] theorem State.stageFrame_baudTaken (s : State) (c : Byte) : (s.stageFrame c).baudTaken = s.baudTaken := rfl
@[simp] theorem State.stageFrame_agenda (s : State) (c : Byte) : (s.stageFrame c).agenda = s.agenda := rfl
@[simp] theorem State.stageFrame_prog (s : State) (c : Byte) : (s.stageFrame c).prog = s.prog := rfl
@[simp] theorem State.stageFrame_busReads (s : State) (c : Byte) : (s.stageFrame c).busReads = s.busReads := rfl
@[simp] theorem State.stageFrame_draws (s : State) (c : Byte) : (s.stageFrame c).draws = s.draws := rfl

/-! `State.unpackFrame` -/

@[simp] theorem State.unpackFrame_par (s : State) : s.unpackFrame.par = s.par := rfl
@[simp] theorem State.unpackFrame_img (s : State) : s.unpackFrame.img = s.img.unpackBody fun r => s.mem.read (frameBase + 3 + r.id.toNat) := rfl
@[simp] theorem State.unpackFrame_m0 (s : State) : s.unpackFrame.m0 = s.m0 := rfl
@[simp] theorem State.unpackFrame_m1 (s : State) : s.unpackFrame.m1 = s.m1 := rfl
@[simp] theorem State.unpackFrame_lastMode (s : State) : s.unpackFrame.lastMode = s.lastMode := rfl
@[simp] theorem State.unpackFrame_autobaudEn (s : State) : s.unpackFrame.autobaudEn = s.autobaudEn := rfl
@[simp] theorem State.unpackFrame_curBaud (s : State) : s.unpackFrame.curBaud = s.curBaud := rfl
@[simp] theorem State.unpackFrame_busy (s : State) : s.unpackFrame.busy = s.busy := rfl
@[simp] theorem State.unpackFrame_done (s : State) : s.unpackFrame.done = s.done := rfl
@[simp] theorem State.unpackFrame_ok (s : State) : s.unpackFrame.ok = s.ok := rfl
@[simp] theorem State.unpackFrame_overrun (s : State) : s.unpackFrame.overrun = s.overrun := rfl
@[simp] theorem State.unpackFrame_err (s : State) : s.unpackFrame.err = s.err := rfl
@[simp] theorem State.unpackFrame_auxTo (s : State) : s.unpackFrame.auxTo = s.auxTo := rfl
@[simp] theorem State.unpackFrame_drainTo (s : State) : s.unpackFrame.drainTo = s.drainTo := rfl
@[simp] theorem State.unpackFrame_rssiValid (s : State) : s.unpackFrame.rssiValid = s.rssiValid := rfl
@[simp] theorem State.unpackFrame_result (s : State) : s.unpackFrame.result = s.result := rfl
@[simp] theorem State.unpackFrame_rssiRx (s : State) : s.unpackFrame.rssiRx = s.rssiRx := rfl
@[simp] theorem State.unpackFrame_noise (s : State) : s.unpackFrame.noise = s.noise := rfl
@[simp] theorem State.unpackFrame_lastRssi (s : State) : s.unpackFrame.lastRssi = s.lastRssi := rfl
@[simp] theorem State.unpackFrame_wcount (s : State) : s.unpackFrame.wcount = s.wcount := rfl
@[simp] theorem State.unpackFrame_rcount (s : State) : s.unpackFrame.rcount = s.rcount := rfl
@[simp] theorem State.unpackFrame_mem (s : State) : s.unpackFrame.mem = s.mem := rfl
@[simp] theorem State.unpackFrame_cmdlat (s : State) : s.unpackFrame.cmdlat = s.cmdlat := rfl
@[simp] theorem State.unpackFrame_upc (s : State) : s.unpackFrame.upc = s.upc := rfl
@[simp] theorem State.unpackFrame_ret (s : State) : s.unpackFrame.ret = s.ret := rfl
@[simp] theorem State.unpackFrame_smt (s : State) : s.unpackFrame.smt = s.smt := rfl
@[simp] theorem State.unpackFrame_tmr (s : State) : s.unpackFrame.tmr = s.tmr := rfl
@[simp] theorem State.unpackFrame_got (s : State) : s.unpackFrame.got = s.got := rfl
@[simp] theorem State.unpackFrame_txpend (s : State) : s.unpackFrame.txpend = s.txpend := rfl
@[simp] theorem State.unpackFrame_wto (s : State) : s.unpackFrame.wto = s.wto := rfl
@[simp] theorem State.unpackFrame_txAns (s : State) : s.unpackFrame.txAns = s.txAns := rfl
@[simp] theorem State.unpackFrame_rxq (s : State) : s.unpackFrame.rxq = s.rxq := rfl
@[simp] theorem State.unpackFrame_aux (s : State) : s.unpackFrame.aux = s.aux := rfl
@[simp] theorem State.unpackFrame_txlog (s : State) : s.unpackFrame.txlog = s.txlog := rfl
@[simp] theorem State.unpackFrame_baudlog (s : State) : s.unpackFrame.baudlog = s.baudlog := rfl
@[simp] theorem State.unpackFrame_baudTaken (s : State) : s.unpackFrame.baudTaken = s.baudTaken := rfl
@[simp] theorem State.unpackFrame_agenda (s : State) : s.unpackFrame.agenda = s.agenda := rfl
@[simp] theorem State.unpackFrame_prog (s : State) : s.unpackFrame.prog = s.prog := rfl
@[simp] theorem State.unpackFrame_busReads (s : State) : s.unpackFrame.busReads = s.busReads := rfl
@[simp] theorem State.unpackFrame_draws (s : State) : s.unpackFrame.draws = s.draws := rfl

/-! `State.latch` -/

@[simp] theorem State.latch_par (s : State) (v : Word) : (s.latch v).par = s.par := rfl
@[simp] theorem State.latch_img (s : State) (v : Word) : (s.latch v).img = s.img := rfl
@[simp] theorem State.latch_m0 (s : State) (v : Word) : (s.latch v).m0 = s.m0 := rfl
@[simp] theorem State.latch_m1 (s : State) (v : Word) : (s.latch v).m1 = s.m1 := rfl
@[simp] theorem State.latch_lastMode (s : State) (v : Word) : (s.latch v).lastMode = s.lastMode := rfl
@[simp] theorem State.latch_autobaudEn (s : State) (v : Word) : (s.latch v).autobaudEn = s.autobaudEn := rfl
@[simp] theorem State.latch_curBaud (s : State) (v : Word) : (s.latch v).curBaud = s.curBaud := rfl
@[simp] theorem State.latch_busy (s : State) (v : Word) : (s.latch v).busy = true := rfl
@[simp] theorem State.latch_done (s : State) (v : Word) : (s.latch v).done = false := rfl
@[simp] theorem State.latch_ok (s : State) (v : Word) : (s.latch v).ok = false := rfl
@[simp] theorem State.latch_overrun (s : State) (v : Word) : (s.latch v).overrun = s.overrun := rfl
@[simp] theorem State.latch_err (s : State) (v : Word) : (s.latch v).err = 0 := rfl
@[simp] theorem State.latch_auxTo (s : State) (v : Word) : (s.latch v).auxTo = false := rfl
@[simp] theorem State.latch_drainTo (s : State) (v : Word) : (s.latch v).drainTo = false := rfl
@[simp] theorem State.latch_rssiValid (s : State) (v : Word) : (s.latch v).rssiValid = s.rssiValid := rfl
@[simp] theorem State.latch_result (s : State) (v : Word) : (s.latch v).result = s.result := rfl
@[simp] theorem State.latch_rssiRx (s : State) (v : Word) : (s.latch v).rssiRx = s.rssiRx := rfl
@[simp] theorem State.latch_noise (s : State) (v : Word) : (s.latch v).noise = s.noise := rfl
@[simp] theorem State.latch_lastRssi (s : State) (v : Word) : (s.latch v).lastRssi = s.lastRssi := rfl
@[simp] theorem State.latch_wcount (s : State) (v : Word) : (s.latch v).wcount = 0 := rfl
@[simp] theorem State.latch_rcount (s : State) (v : Word) : (s.latch v).rcount = 0 := rfl
@[simp] theorem State.latch_mem (s : State) (v : Word) : (s.latch v).mem = s.mem := rfl
@[simp] theorem State.latch_cmdlat (s : State) (v : Word) : (s.latch v).cmdlat = v := rfl
@[simp] theorem State.latch_upc (s : State) (v : Word) : (s.latch v).upc = s.upc := rfl
@[simp] theorem State.latch_ret (s : State) (v : Word) : (s.latch v).ret = s.ret := rfl
@[simp] theorem State.latch_smt (s : State) (v : Word) : (s.latch v).smt = s.smt := rfl
@[simp] theorem State.latch_tmr (s : State) (v : Word) : (s.latch v).tmr = s.tmr := rfl
@[simp] theorem State.latch_got (s : State) (v : Word) : (s.latch v).got = s.got := rfl
@[simp] theorem State.latch_txpend (s : State) (v : Word) : (s.latch v).txpend = s.txpend := rfl
@[simp] theorem State.latch_wto (s : State) (v : Word) : (s.latch v).wto = s.wto := rfl
@[simp] theorem State.latch_txAns (s : State) (v : Word) : (s.latch v).txAns = s.txAns := rfl
@[simp] theorem State.latch_rxq (s : State) (v : Word) : (s.latch v).rxq = s.rxq := rfl
@[simp] theorem State.latch_aux (s : State) (v : Word) : (s.latch v).aux = s.aux := rfl
@[simp] theorem State.latch_txlog (s : State) (v : Word) : (s.latch v).txlog = s.txlog := rfl
@[simp] theorem State.latch_baudlog (s : State) (v : Word) : (s.latch v).baudlog = s.baudlog := rfl
@[simp] theorem State.latch_baudTaken (s : State) (v : Word) : (s.latch v).baudTaken = s.baudTaken := rfl
@[simp] theorem State.latch_agenda (s : State) (v : Word) : (s.latch v).agenda = s.agenda := rfl
@[simp] theorem State.latch_prog (s : State) (v : Word) : (s.latch v).prog = s.prog := rfl
@[simp] theorem State.latch_busReads (s : State) (v : Word) : (s.latch v).busReads = s.busReads := rfl
@[simp] theorem State.latch_draws (s : State) (v : Word) : (s.latch v).draws = s.draws := rfl

/-! `State.refuse` -/

@[simp] theorem State.refuse_par (s : State) : s.refuse.par = s.par := rfl
@[simp] theorem State.refuse_img (s : State) : s.refuse.img = s.img := rfl
@[simp] theorem State.refuse_m0 (s : State) : s.refuse.m0 = s.m0 := rfl
@[simp] theorem State.refuse_m1 (s : State) : s.refuse.m1 = s.m1 := rfl
@[simp] theorem State.refuse_lastMode (s : State) : s.refuse.lastMode = s.lastMode := rfl
@[simp] theorem State.refuse_autobaudEn (s : State) : s.refuse.autobaudEn = s.autobaudEn := rfl
@[simp] theorem State.refuse_curBaud (s : State) : s.refuse.curBaud = s.curBaud := rfl
@[simp] theorem State.refuse_busy (s : State) : s.refuse.busy = s.busy := rfl
@[simp] theorem State.refuse_done (s : State) : s.refuse.done = s.done := rfl
@[simp] theorem State.refuse_ok (s : State) : s.refuse.ok = s.ok := rfl
@[simp] theorem State.refuse_overrun (s : State) : s.refuse.overrun = true := rfl
@[simp] theorem State.refuse_err (s : State) : s.refuse.err = s.err := rfl
@[simp] theorem State.refuse_auxTo (s : State) : s.refuse.auxTo = s.auxTo := rfl
@[simp] theorem State.refuse_drainTo (s : State) : s.refuse.drainTo = s.drainTo := rfl
@[simp] theorem State.refuse_rssiValid (s : State) : s.refuse.rssiValid = s.rssiValid := rfl
@[simp] theorem State.refuse_result (s : State) : s.refuse.result = s.result := rfl
@[simp] theorem State.refuse_rssiRx (s : State) : s.refuse.rssiRx = s.rssiRx := rfl
@[simp] theorem State.refuse_noise (s : State) : s.refuse.noise = s.noise := rfl
@[simp] theorem State.refuse_lastRssi (s : State) : s.refuse.lastRssi = s.lastRssi := rfl
@[simp] theorem State.refuse_wcount (s : State) : s.refuse.wcount = s.wcount := rfl
@[simp] theorem State.refuse_rcount (s : State) : s.refuse.rcount = s.rcount := rfl
@[simp] theorem State.refuse_mem (s : State) : s.refuse.mem = s.mem := rfl
@[simp] theorem State.refuse_cmdlat (s : State) : s.refuse.cmdlat = s.cmdlat := rfl
@[simp] theorem State.refuse_upc (s : State) : s.refuse.upc = s.upc := rfl
@[simp] theorem State.refuse_ret (s : State) : s.refuse.ret = s.ret := rfl
@[simp] theorem State.refuse_smt (s : State) : s.refuse.smt = s.smt := rfl
@[simp] theorem State.refuse_tmr (s : State) : s.refuse.tmr = s.tmr := rfl
@[simp] theorem State.refuse_got (s : State) : s.refuse.got = s.got := rfl
@[simp] theorem State.refuse_txpend (s : State) : s.refuse.txpend = s.txpend := rfl
@[simp] theorem State.refuse_wto (s : State) : s.refuse.wto = s.wto := rfl
@[simp] theorem State.refuse_txAns (s : State) : s.refuse.txAns = s.txAns := rfl
@[simp] theorem State.refuse_rxq (s : State) : s.refuse.rxq = s.rxq := rfl
@[simp] theorem State.refuse_aux (s : State) : s.refuse.aux = s.aux := rfl
@[simp] theorem State.refuse_txlog (s : State) : s.refuse.txlog = s.txlog := rfl
@[simp] theorem State.refuse_baudlog (s : State) : s.refuse.baudlog = s.baudlog := rfl
@[simp] theorem State.refuse_baudTaken (s : State) : s.refuse.baudTaken = s.baudTaken := rfl
@[simp] theorem State.refuse_agenda (s : State) : s.refuse.agenda = s.agenda := rfl
@[simp] theorem State.refuse_prog (s : State) : s.refuse.prog = s.prog := rfl
@[simp] theorem State.refuse_busReads (s : State) : s.refuse.busReads = s.busReads := rfl
@[simp] theorem State.refuse_draws (s : State) : s.refuse.draws = s.draws := rfl

end Sys2Proof.Machine
end

