-- ==== Sys2Proof/Laws/Ops.lean ====
section
/-! SUPPORT. For each shared operation, once, everything it can do: proofs cite these and do not unfold the operation. -/

namespace Sys2Proof.Machine

/-- Nothing but UPC's label changes where no timed primitive starts. -/
theorem State.goto_untimed (s : State) (l : Label) (h : s.timedAt l = false) (hr : l.reads = false) :
    s.goto l = { s with upc := l } := by
  simp [State.goto, h, hr]

theorem State.delay_cases (s : State) (t : Nat) (next : Label) :
    (s.elapsed t = true ∧ s.delay t next = s.goto next) ∨ (s.elapsed t = false ∧ s.delay t next = s) := by
  unfold State.delay
  split
  · next h => exact .inl ⟨h, rfl⟩
  · next h => exact .inr ⟨by simpa using h, rfl⟩

theorem State.waitRx_cases (s : State) (t : Nat) (leave : Bool → State) :
    (s.rxq ≠ [] ∧ s.waitRx t leave = leave false) ∨
      (s.rxq = [] ∧ s.elapsed t = true ∧ s.waitRx t leave = leave true) ∨
      (s.rxq = [] ∧ s.elapsed t = false ∧ s.waitRx t leave = s) := by
  unfold State.waitRx
  split
  · next h => exact .inl ⟨h, rfl⟩
  · next h =>
    have h : s.rxq = [] := by simpa using h
    split
    · next h' => exact .inr (.inl ⟨h, h', rfl⟩)
    · next h' => exact .inr (.inr ⟨h, by simpa using h', rfl⟩)

theorem State.drain_cases (s : State) (next : Label) :
    (s.rxq = [] ∧ s.drain next = s.goto next) ∨
      (∃ b q, s.rxq = b :: q ∧ s.elapsed Config.tDrainCap = true ∧
        s.drain next = ({ s with drainTo := true } : State).goto next) ∨
      (∃ b q, s.rxq = b :: q ∧ s.elapsed Config.tDrainCap = false ∧ s.drain next = { s with rxq := q }) := by
  unfold State.drain
  split
  · next h => exact .inl ⟨h, rfl⟩
  · next b q h =>
    split
    · next h' => exact .inr (.inl ⟨b, q, h, h', rfl⟩)
    · next h' => exact .inr (.inr ⟨b, q, h, by simpa using h', rfl⟩)

/-- BusyWait proceeds, proceeds with AUX_TO, or holds; a stop on the ready level or the blind delay sets no flag. -/
theorem State.busyWait_cases (s : State) (next : Label) :
    s.busyWait next = s.goto next ∨
      (s.par.hasAux = true ∧ s.busyWait next = ({ s with auxTo := true } : State).goto next) ∨
      s.busyWait next = s := by
  unfold State.busyWait State.delay
  split
  · next ha =>
    split
    · exact .inl rfl
    · split
      · exact .inr (.inl ⟨ha, rfl⟩)
      · exact .inr (.inr rfl)
  · split
    · exact .inl rfl
    · exact .inr (.inr rfl)

theorem State.rxRead_cases (s : State) (base n : Nat) (next : Label) :
    s.rxRead base n next = ({ s with rcount := s.got } : State).goto next ∨
      (∃ b q, s.got.toNat ≠ n ∧ s.rxq = b :: q ∧
        s.rxRead base n next =
          { s with mem := s.mem.write (base + s.got.toNat) b, rxq := q, got := s.got + 1#16, tmr := 0 }) ∨
      s.rxRead base n next = s := by
  unfold State.rxRead
  split
  · exact .inl rfl
  · next hn =>
    split
    · next b q h => exact .inr (.inl ⟨b, q, hn, h, rfl⟩)
    · split
      · exact .inl rfl
      · exact .inr (.inr rfl)

theorem State.txWrite_cases (s : State) (n : Nat) (next : Label) :
    (n = 0 ∧ s.txWrite n next = ({ s with wcount := 0 } : State).goto next) ∨
      (n ≠ 0 ∧ s.txpend = true ∧ s.txWrite n next = s) ∨
      (∃ w, n ≠ 0 ∧ s.txpend = false ∧ s.txAns = some w ∧
        s.txWrite n next = ({ s with wcount := w, txAns := none } : State).goto next) ∨
      (n ≠ 0 ∧ s.txpend = false ∧ s.txAns = none ∧ s.txWrite n next = { s with txpend := true }) := by
  unfold State.txWrite
  split
  · next h => exact .inl ⟨h, rfl⟩
  · next h =>
    split
    · next hp => exact .inr (.inl ⟨h, hp, rfl⟩)
    · next hp =>
      split
      · next w hw => exact .inr (.inr (.inl ⟨w, h, by simpa using hp, hw, rfl⟩))
      · next hw => exact .inr (.inr (.inr ⟨h, by simpa using hp, hw, rfl⟩))

/-- SM3 requests PROG_BAUD and records it, or does nothing. -/
theorem State.switchToProgBaud_cases (s : State) :
    (s.smt = 3#2 ∧ s.autobaudEn = true ∧ s.switchToProgBaud = s.baudReq Config.progBaud) ∨
      s.switchToProgBaud = s := by
  unfold State.switchToProgBaud
  split
  · next h => exact .inl ⟨h.1, h.2.1, rfl⟩
  · exact .inr rfl

/-- SM4 restores the configured rate and records it, or does nothing. -/
theorem State.restoreBaud_cases (s : State) :
    (s.smt ≠ 3#2 ∧ s.autobaudEn = true ∧ s.restoreBaud = s.baudReq s.configuredBaud) ∨ s.restoreBaud = s := by
  unfold State.restoreBaud
  split
  · next h => exact .inl ⟨h.1, h.2.1, rfl⟩
  · exact .inr rfl

theorem State.recordMode_cases (s : State) :
    (s.ret = none ∧ s.recordMode = ({ s with lastMode := s.smt.setWidth 3 } : State).succeed) ∨
      ∃ l, s.ret = some l ∧
        s.recordMode = ({ s with lastMode := s.smt.setWidth 3, ret := none } : State).goto l := by
  unfold State.recordMode
  split
  · next h => exact .inl ⟨h, rfl⟩
  · next l h => exact .inr ⟨l, h, rfl⟩

theorem State.tick_cases (s : State) : s.tick = s ∨ ∃ t, s.timedAt s.upc = true ∧ s.tick = { s with tmr := t } := by
  unfold State.tick
  split
  · next h => exact .inr ⟨_, h, rfl⟩
  · exact .inl rfl

/-- An answer is taken only where a TxWrite is pending, with at most its size, and logs a prefix of the offered
bytes. -/
theorem State.txAnswer_cases (s : State) (w : BitVec 16) :
    s.txAnswer w = s ∨
      ∃ base n, s.txpend = true ∧ s.primAt s.upc = some (.txWrite base n) ∧ w.toNat ≤ n ∧
        s.txAnswer w = { s with txlog := s.txlog ++ (s.mem.bytes base w.toNat).map (fun b => (b, s.modeCode))
                                txpend := false
                                txAns := some w } := by
  unfold State.txAnswer
  split
  · next base n h =>
    unfold State.offered at h
    split at h
    · next hp =>
      split at h
      · next b k hk =>
        obtain ⟨rfl, rfl⟩ : b = base ∧ k = n := by simpa using h
        split
        · next hw => exact .inr ⟨b, k, hp, hk, hw, rfl⟩
        · exact .inl rfl
      · simp at h
    · simp at h
  · exact .inl rfl

theorem State.takeBaud_cases (s : State) :
    s.takeBaud = s ∨ (s.baudTaken < s.baudlog.length ∧ s.takeBaud = { s with baudTaken := s.baudTaken + 1 }) := by
  unfold State.takeBaud
  split
  · next h => exact .inr ⟨h, rfl⟩
  · exact .inl rfl

/-- A PAYLOAD word write changes memory only, at payload bytes. -/
theorem State.writePayloadWord_eq (s : State) (w : Nat) (v : Word) :
    ∃ m, s.writePayloadWord w v = { s with mem := m } := by
  have one : ∀ (s : State) (a : Nat) (b : Byte), ∃ m, s.writePayloadByte a b = { s with mem := m } := by
    intro s a b
    unfold State.writePayloadByte
    split
    · exact ⟨_, rfl⟩
    · exact ⟨s.mem, rfl⟩
  unfold State.writePayloadWord
  obtain ⟨m0, h0⟩ := one s w (laneOf v 0)
  rw [h0]
  obtain ⟨m1, h1⟩ := one { s with mem := m0 } (w + 1) (laneOf v 1)
  rw [h1]
  obtain ⟨m2, h2⟩ := one { s with mem := m1 } (w + 2) (laneOf v 2)
  rw [h2]
  obtain ⟨m3, h3⟩ := one { s with mem := m2 } (w + 3) (laneOf v 3)
  exact ⟨m3, h3⟩

/-- Everything a host write can do (R85): accept, clear OVERRUN, write AUTOBAUD_EN, CUR_BAUD or PAYLOAD, be refused
under BUSY, or nothing. -/
theorem State.hostWrite_cases (s : State) (a : Addr) (v : Word) :
    (wordAddr a = 0x000 ∧ s.busy = false ∧ s.hostWrite a v = s.accept v) ∨
      (s.busy = true ∧ s.hostWrite a v = s.refuse) ∨
      (wordAddr a = 0x004 ∧ v.getLsbD 3 = true ∧ s.hostWrite a v = { s with overrun := false }) ∨
      (wordAddr a = 0x00C ∧ s.busy = false ∧ s.hostWrite a v = { s with autobaudEn := v.getLsbD 0 }) ∨
      (wordAddr a = 0x010 ∧ s.busy = false ∧ s.hostWrite a v = { s with curBaud := v }) ∨
      (inPayloadWindow s.par.payloadMax (wordAddr a) = true ∧ s.busy = false ∧
        s.hostWrite a v = s.writePayloadWord (wordAddr a) v) ∨
      s.hostWrite a v = s := by
  unfold State.hostWrite State.unlessBusy
  split
  · next h => cases hb : s.busy <;> simp [h]
  · next h => cases hv : v.getLsbD 3 <;> simp [h]
  · next h => cases hb : s.busy <;> simp [h]
  · next h => cases hb : s.busy <;> simp [h]
  · next h =>
    split
    · next hw => cases hb : s.busy <;> simp [hw]
    · simp

/-- Acceptance completes an illegal word and starts a legal one. -/
theorem State.accept_cases (s : State) (v : Word) :
    (∃ e, decode s.par.payloadMax v = .error e ∧ s.accept v = (s.latch v).raise .illegal) ∨
      ∃ i, decode s.par.payloadMax v = .ok i ∧ s.accept v = (s.latch v).start i := by
  unfold State.accept
  split
  · next i h => exact .inr ⟨i, h, rfl⟩
  · next e h => exact .inl ⟨e, h, rfl⟩

/-- Starting a command moves UPC to its first step; SET_MODE also loads SMT and clears RET. -/
theorem State.start_cases (s : State) (i : Instr) :
    (∃ mc, i = .setMode mc ∧ s.start i = ({ s with smt := mc, ret := none } : State).goto .sm1) ∨
      ((∀ mc, i ≠ .setMode mc) ∧ s.start i = s.goto i.firstLabel) := by
  cases i with
  | setMode mc => exact .inl ⟨mc, rfl, rfl⟩
  | _ => exact .inr ⟨by simp, rfl⟩

/-- Everything a step can do: the agenda's next move, or, where the agenda is empty, the block's step, the
environment's answer, the host program's next access, or a tick. -/
theorem step_cases {s t : State} (h : step s = .next t) :
    (∃ m rest, s.agenda = m :: rest ∧ ({ s with agenda := rest } : State).perform m = .next t) ∨
      (s.agenda = [] ∧
        ((s.blockEnabled = true ∧ s.blockStep = .next t) ∨
          (s.blockEnabled = false ∧ s.txpend = true ∧
            t = { s.txAnswer s.freeAnswer with draws := s.draws + 1 }) ∨
          (s.blockEnabled = false ∧ s.txpend = false ∧ s.progReady = true ∧ t = s.progStep) ∨
          (s.blockEnabled = false ∧ s.txpend = false ∧ s.progReady = false ∧ t = s.tick))) := by
  unfold step at h
  split at h
  · next m rest ha => exact .inl ⟨m, rest, ha, h⟩
  · next ha =>
    refine .inr ⟨ha, ?_⟩
    unfold State.autoStep at h
    split at h
    · next hb => exact .inl ⟨hb, h⟩
    · next hb =>
      have hb : s.blockEnabled = false := by simpa using hb
      split at h
      · next hp => exact .inr (.inl ⟨hb, hp, by simpa using h.symm⟩)
      · next hp =>
        have hp : s.txpend = false := by simpa using hp
        split at h
        · next hr => exact .inr (.inr (.inl ⟨hb, hp, hr, by simpa using h.symm⟩))
        · next hr => exact .inr (.inr (.inr ⟨hb, hp, by simpa using hr, by simpa using h.symm⟩))

/-- The block's step stands still when idle, and otherwise runs the command latched in CMDLAT. -/
theorem State.blockStep_cases {s t : State} (h : s.blockStep = .next t) :
    (s.upc = .idle ∧ t = s) ∨
      (s.upc ≠ .idle ∧ ∃ i, decode s.par.payloadMax s.cmdlat = .ok i ∧ exec i s = .next t) := by
  unfold State.blockStep at h
  split at h
  · next hi => exact .inl ⟨hi, by simpa using h.symm⟩
  · next hi =>
    split at h
    · next i hd => exact .inr ⟨hi, i, hd, h⟩
    · simp at h

end Sys2Proof.Machine
end

