-- ==== Sys2Proof/Laws/Exec.lean ====
section
/-! SUPPORT. What no step of the block does, whichever command runs; and the address ranges as arithmetic. -/

namespace Sys2Proof.Machine

theorem inPayloadWindow_iff (pm w : Nat) :
    inPayloadWindow pm w = true ↔ 0x100 ≤ w ∧ w < 0x100 + 4 * ((pm + 3) / 4) := by
  simp only [inPayloadWindow, Bool.and_eq_true, decide_eq_true_eq]
  simp only [payloadBase]

theorem isPayloadByte_iff (pm a : Nat) : isPayloadByte pm a = true ↔ 0x100 ≤ a ∧ a < 0x100 + pm := by
  simp only [isPayloadByte, Bool.and_eq_true, decide_eq_true_eq]
  simp only [payloadBase]

theorem isBufferByte_iff (pm a : Nat) :
    isBufferByte pm a = true ↔
      (0x040 ≤ a ∧ a < 0x049) ∨ (0x050 ≤ a ∧ a < 0x056) ∨ (0x058 ≤ a ∧ a < 0x05D) ∨ (0x100 ≤ a ∧ a < 0x100 + pm) := by
  simp only [isBufferByte, Bool.or_eq_true, Bool.and_eq_true, decide_eq_true_eq, isPayloadByte_iff, or_assoc]
  simp only [frameBase, xbufBase, rbufBase, Nat.reduceAdd]

/-- The word address of an access is aligned (R82). -/
theorem wordAddr_mod (a : Addr) : wordAddr a % 4 = 0 := by
  have h : (a &&& 0xFFC#12) &&& 3#12 = 0#12 := by rw [BitVec.and_assoc]; simp
  have h := congrArg BitVec.toNat h
  rw [BitVec.toNat_and] at h
  exact (Nat.and_two_pow_sub_one_eq_mod _ 2).symm.trans h

/-- What is as it was: the parameters, OVERRUN, AUTOBAUD_EN, CMDLAT, the environment's AUX level and logs of its own
making, and the model's bookkeeping. -/
structure SameOutside (s t : State) : Prop where
  par : t.par = s.par
  overrun : t.overrun = s.overrun
  autobaudEn : t.autobaudEn = s.autobaudEn
  cmdlat : t.cmdlat = s.cmdlat
  aux : t.aux = s.aux
  txlog : t.txlog = s.txlog
  baudTaken : t.baudTaken = s.baudTaken
  agenda : t.agenda = s.agenda
  prog : t.prog = s.prog
  busReads : t.busReads = s.busReads
  draws : t.draws = s.draws

theorem SameOutside.refl (s : State) : SameOutside s s := by constructor <;> rfl

theorem SameOutside.goto (s : State) (l : Label) : SameOutside s (s.goto l) := by constructor <;> rfl

theorem SameOutside.complete (s : State) (ok : Bool) (err : BitVec 4) : SameOutside s (s.complete ok err) := by
  constructor <;> rfl

theorem SameOutside.delay (s : State) (t : Nat) (l : Label) : SameOutside s (s.delay t l) := by
  rcases State.delay_cases s t l with ⟨-, e⟩ | ⟨-, e⟩ <;> rw [e] <;> constructor <;> rfl

theorem SameOutside.drain (s : State) (l : Label) : SameOutside s (s.drain l) := by
  rcases State.drain_cases s l with ⟨-, e⟩ | ⟨_, _, -, -, e⟩ | ⟨_, _, -, -, e⟩ <;> rw [e] <;> constructor <;> rfl

theorem SameOutside.busyWait (s : State) (l : Label) : SameOutside s (s.busyWait l) := by
  rcases State.busyWait_cases s l with e | ⟨-, e⟩ | e <;> rw [e] <;> constructor <;> rfl

theorem SameOutside.rxRead (s : State) (b n : Nat) (l : Label) : SameOutside s (s.rxRead b n l) := by
  rcases State.rxRead_cases s b n l with e | ⟨_, _, -, -, e⟩ | e <;> rw [e] <;> constructor <;> rfl

theorem SameOutside.txWrite (s : State) (n : Nat) (l : Label) : SameOutside s (s.txWrite n l) := by
  rcases State.txWrite_cases s n l with ⟨-, e⟩ | ⟨-, -, e⟩ | ⟨_, -, -, -, e⟩ | ⟨-, -, -, e⟩ <;> rw [e] <;>
    constructor <;> rfl

theorem SameOutside.setModeStep {s t : State} (h : s.setModeStep = .next t) : SameOutside s t := by
  unfold State.setModeStep at h
  split at h <;> cases h
  · exact .delay _ _ _
  · constructor <;> rfl
  · rcases State.switchToProgBaud_cases s with ⟨-, -, e⟩ | e <;> rw [e] <;> constructor <;> rfl
  · rcases State.restoreBaud_cases s with ⟨-, -, e⟩ | e <;> rw [e] <;> constructor <;> rfl
  · exact .delay _ _ _
  · exact .drain _ _
  · exact .busyWait _ _
  · rcases State.recordMode_cases s with ⟨-, e⟩ | ⟨_, -, e⟩ <;> rw [e] <;> constructor <;> rfl

/-- READ_PARAMS touches nothing outside. -/
theorem SameOutside.readParams {s t : State} (h : execReadParams s = .next t) : SameOutside s t := by
  unfold execReadParams at h
  split at h
  case h_9 => exact .setModeStep h
  all_goals cases h
  · constructor <;> rfl
  · constructor <;> rfl
  · exact .txWrite _ _ _
  · exact .delay _ _ _
  · exact .rxRead _ _ _ _
  · constructor <;> rfl
  · constructor <;> rfl
  · split
    · constructor <;> rfl
    · split <;> constructor <;> rfl

/-- SAVE_PARAMS touches nothing outside. -/
theorem SameOutside.saveParams {p : Persistence} {s t : State} (h : execSaveParams p s = .next t) : SameOutside s t := by
  unfold execSaveParams at h
  split at h
  case h_9 => exact .setModeStep h
  all_goals cases h
  · constructor <;> rfl
  · constructor <;> rfl
  · exact .delay _ _ _
  · exact .txWrite _ _ _
  · rcases State.waitRx_cases s Config.tSaveResp (fun _ => s.goto .sp6) with ⟨-, e⟩ | ⟨-, -, e⟩ | ⟨-, -, e⟩ <;>
      rw [e] <;> constructor <;> rfl
  · exact .rxRead _ _ _ _
  · constructor <;> rfl
  · split <;> constructor <;> rfl

/-- SET_CRYPT_KEY touches nothing outside. -/
theorem SameOutside.setCryptKey {key : BitVec 16} {s t : State} (h : execSetCryptKey key s = .next t) : SameOutside s t := by
  unfold execSetCryptKey at h
  split at h
  case h_8 => exact .setModeStep h
  all_goals cases h
  · constructor <;> rfl
  · constructor <;> rfl
  · exact .delay _ _ _
  · exact .txWrite _ _ _
  · exact .rxRead _ _ _ _
  · constructor <;> rfl
  · split <;> constructor <;> rfl

/-- SEND touches nothing outside. -/
theorem SameOutside.send {n : BitVec 16} {s t : State} (h : execSend n s = .next t) : SameOutside s t := by
  unfold execSend at h
  split at h <;> cases h
  · exact .txWrite _ _ _
  · exact .busyWait _ _
  · split <;> constructor <;> rfl

/-- RECEIVE touches nothing outside. -/
theorem SameOutside.receive {n : BitVec 16} {s t : State} (h : execReceive n s = .next t) : SameOutside s t := by
  unfold execReceive at h
  split at h
  case h_4 =>
    unfold State.rssiTake at h
    split at h
    · split at h <;> cases h
      constructor <;> rfl
    · cases h
      constructor <;> rfl
  all_goals cases h
  · constructor <;> rfl
  · exact .rxRead _ _ _ _
  · unfold State.rssiPoll
    split
    · rcases State.waitRx_cases s Config.tRssiPoll
          (fun timedOut => ({ s with wto := timedOut } : State).goto .dr4) with ⟨-, e⟩ | ⟨-, -, e⟩ | ⟨-, -, e⟩ <;>
        rw [e] <;> constructor <;> rfl
    · constructor <;> rfl
  · exact .busyWait _ _
  · split <;> constructor <;> rfl

/-- QUERY_RSSI touches nothing outside. -/
theorem SameOutside.queryRssi {s t : State} (h : execQueryRssi s = .next t) : SameOutside s t := by
  unfold execQueryRssi at h
  split at h <;> cases h
  · split <;> constructor <;> rfl
  · constructor <;> rfl
  · exact .txWrite _ _ _
  · exact .delay _ _ _
  · exact .rxRead _ _ _ _
  · split <;> constructor <;> rfl

/-- No command's step writes the parameters, OVERRUN, AUTOBAUD_EN or CMDLAT, and none of the other agents' state but
RXQ and BAUDLOG (R20, R38, R94, R254). -/
theorem SameOutside.exec {i : Instr} {s t : State} (h : exec i s = .next t) : SameOutside s t := by
  cases i with
  | setMode mc => exact .setModeStep h
  | setField f v | getField f | loadReg r b | noiseDbm raw =>
    simp only [Machine.exec, execSetField, execGetField, execLoadReg, execNoiseDbm] at h
    split at h <;> cases h
    constructor <;> rfl
  | readParams => exact .readParams h
  | saveParams p => exact .saveParams h
  | setCryptKey key => exact .setCryptKey h
  | send n => exact .send h
  | receive n => exact .receive h
  | queryRssi => exact .queryRssi h

end Sys2Proof.Machine
end

