-- ==== Sys2Proof/Laws/Memory.lean ====
section
/-! SUPPORT. The laws of the buffer memory: a read after a write, the canonical form that every operation keeps, and
where the cells of a written memory come from. -/

namespace Sys2Proof.Machine

theorem Memory.read_cons (a : Nat) (b : Byte) (m : Memory) (x : Nat) (h : ∀ c ∈ m, a < c.1) :
    (Memory.cons a b m).read x = if a = x then b else m.read x := by
  unfold Memory.cons
  split
  · next hb =>
    subst hb
    by_cases hx : a = x
    · subst hx
      rw [if_pos rfl]
      induction m with
      | nil => rfl
      | cons c m ih =>
        have hc := h c (by simp)
        rw [Memory.read, if_neg (by omega)]
        exact ih fun d hd => h d (by simp [hd])
    · rw [if_neg hx]
  · rfl

theorem Memory.read_lt (m : Memory) (x : Nat) (h : ∀ c ∈ m, x < c.1) : m.read x = Memory.unlisted := by
  induction m with
  | nil => rfl
  | cons c m ih =>
    have hc := h c (by simp)
    rw [Memory.read, if_neg (by omega)]
    exact ih fun d hd => h d (by simp [hd])

/-- What a read gives after a write, at every address. -/
theorem Memory.read_write (m : Memory) (h : m.Wf) (a x : Nat) (b : Byte) :
    (m.write a b).read x = if a = x then b else m.read x := by
  induction m with
  | nil => exact Memory.read_cons a b [] x (by simp)
  | cons c m ih =>
    obtain ⟨k, v⟩ := c
    have hs := h.1
    rw [List.pairwise_cons] at hs
    have hm : Memory.Wf m := ⟨hs.2, fun d hd => h.2 d (by simp [hd])⟩
    simp only [Memory.write]
    split
    · next hlt =>
      refine Memory.read_cons a b _ x fun d hd => ?_
      rcases List.mem_cons.1 hd with rfl | hd
      · exact hlt
      · exact Nat.lt_trans hlt (hs.1 d hd)
    · next hge =>
      split
      · next heq =>
        subst heq
        rw [Memory.read_cons a b m x fun d hd => hs.1 d hd]
        simp only [Memory.read]
        split <;> rfl
      · next hne =>
        simp only [Memory.read, ih hm]
        by_cases hk : k = x
        · rw [if_pos hk, if_pos hk, if_neg (by omega)]
        · rw [if_neg hk, if_neg hk]

theorem Memory.mem_cons {a : Nat} {b : Byte} {m : Memory} {c : Host.Cell} (h : c ∈ Memory.cons a b m) :
    (c = (a, b) ∧ b ≠ Memory.unlisted) ∨ c ∈ m := by
  unfold Memory.cons at h
  split at h
  · exact .inr h
  · next hb =>
    rcases List.mem_cons.1 h with h | h
    · exact .inl ⟨h, hb⟩
    · exact .inr h

/-- A cell of a written memory is the written one or was there. -/
theorem Memory.mem_write {m : Memory} {a : Nat} {b : Byte} {c : Host.Cell} (h : c ∈ m.write a b) :
    (c = (a, b) ∧ b ≠ Memory.unlisted) ∨ c ∈ m := by
  induction m with
  | nil => exact Memory.mem_cons h
  | cons d m ih =>
    obtain ⟨k, v⟩ := d
    simp only [Memory.write] at h
    split at h
    · exact Memory.mem_cons h
    · split at h
      · rcases Memory.mem_cons h with h | h
        · exact .inl h
        · exact .inr (by simp [h])
      · rcases List.mem_cons.1 h with h | h
        · exact .inr (by simp [h])
        · rcases ih h with h | h
          · exact .inl h
          · exact .inr (by simp [h])

theorem Memory.wf_cons {a : Nat} {b : Byte} {m : Memory} (hm : m.Wf) (h : ∀ c ∈ m, a < c.1) :
    (Memory.cons a b m).Wf := by
  unfold Memory.cons
  split
  · exact hm
  · next hb =>
    refine ⟨List.pairwise_cons.2 ⟨h, hm.1⟩, fun c hc => ?_⟩
    rcases List.mem_cons.1 hc with rfl | hc
    · exact hb
    · exact hm.2 c hc

/-- A write keeps the canonical form. -/
theorem Memory.wf_write {m : Memory} (h : m.Wf) (a : Nat) (b : Byte) : (m.write a b).Wf := by
  induction m with
  | nil => exact Memory.wf_cons ⟨.nil, by simp⟩ (by simp)
  | cons c m ih =>
    obtain ⟨k, v⟩ := c
    have hs := h.1
    rw [List.pairwise_cons] at hs
    have hm : Memory.Wf m := ⟨hs.2, fun d hd => h.2 d (by simp [hd])⟩
    simp only [Memory.write]
    split
    · next hlt =>
      refine Memory.wf_cons h fun d hd => ?_
      rcases List.mem_cons.1 hd with rfl | hd
      · exact hlt
      · exact Nat.lt_trans hlt (hs.1 d hd)
    · split
      · next heq =>
        subst heq
        exact Memory.wf_cons hm hs.1
      · next hge hne =>
        refine ⟨List.pairwise_cons.2 ⟨fun d hd => ?_, (ih hm).1⟩, fun d hd => ?_⟩
        · rcases Memory.mem_write hd with ⟨rfl, -⟩ | hd
          · show k < a
            omega
          · exact hs.1 d hd
        · rcases List.mem_cons.1 hd with rfl | hd
          · exact h.2 _ (by simp)
          · exact (ih hm).2 d hd

theorem Memory.wf_writeBytes {m : Memory} (h : m.Wf) (base : Nat) (bs : List Byte) : (m.writeBytes base bs).Wf := by
  induction bs generalizing m base with
  | nil => exact h
  | cons b bs ih => exact ih (Memory.wf_write h base b) (base + 1)

/-- A cell of a memory written with bytes was there or stands at one of the written addresses. -/
theorem Memory.mem_writeBytes {m : Memory} {base : Nat} {bs : List Byte} {c : Host.Cell}
    (h : c ∈ m.writeBytes base bs) : (base ≤ c.1 ∧ c.1 < base + bs.length) ∨ c ∈ m := by
  induction bs generalizing m base with
  | nil => exact .inr h
  | cons b bs ih =>
    rcases ih h with h | h
    · left
      simp only [List.length_cons]
      omega
    · rcases Memory.mem_write h with ⟨rfl, -⟩ | h
      · left
        simp only [List.length_cons]
        omega
      · exact .inr h

/-- What a read gives after a write of bytes: the byte of its index, or what was there. -/
theorem Memory.read_writeBytes {m : Memory} (h : m.Wf) (base x : Nat) (bs : List Byte) :
    (m.writeBytes base bs).read x =
      if base ≤ x ∧ x < base + bs.length then bs.getD (x - base) Memory.unlisted else m.read x := by
  induction bs generalizing m base with
  | nil =>
    rw [if_neg (by simp only [List.length_nil]; omega)]
    rfl
  | cons b bs ih =>
    rw [Memory.writeBytes, ih (Memory.wf_write h base b), Memory.read_write m h, List.length_cons]
    by_cases h0 : base = x
    · subst h0
      rw [if_neg (by omega), if_pos rfl, if_pos (by omega), Nat.sub_self, List.getD_cons_zero]
    · rw [if_neg h0]
      by_cases h1 : base + 1 ≤ x ∧ x < base + 1 + bs.length
      · rw [if_pos h1, if_pos (by omega), show x - base = (x - (base + 1)) + 1 by omega, List.getD_cons_succ]
      · rw [if_neg h1, if_neg (by omega)]

theorem Memory.wf_ofDraw (payloadMax : Nat) (cs : List Host.Cell) : (Memory.ofDraw payloadMax cs).Wf := by
  induction cs with
  | nil => exact ⟨.nil, by simp [Memory.ofDraw]⟩
  | cons c cs ih =>
    obtain ⟨a, b⟩ := c
    simp only [Memory.ofDraw]
    split
    · exact Memory.wf_write ih a b
    · exact ih

/-- A drawn memory holds buffer bytes only. -/
theorem Memory.mem_ofDraw {payloadMax : Nat} {cs : List Host.Cell} {c : Host.Cell}
    (h : c ∈ Memory.ofDraw payloadMax cs) : isBufferByte payloadMax c.1 = true := by
  induction cs with
  | nil => simp [Memory.ofDraw] at h
  | cons d cs ih =>
    obtain ⟨a, b⟩ := d
    simp only [Memory.ofDraw] at h
    split at h
    · next ha =>
      rcases Memory.mem_write h with ⟨rfl, -⟩ | h
      · exact ha
      · exact ih h
    · exact ih h

theorem State.reset_mem_wf : State.reset.mem.Wf := ⟨.nil, by simp [State.reset]⟩

end Sys2Proof.Machine
end

