-- ==== Sys2Proof/Laws/PerInstr.lean ====
section
/-! SUPPORT. Facts of each instruction as syntax. Family EncodesIntoItsRow: the encoded word of a well-formed command
is legal for the row of R123's mask-and-match table that carries its mnemonic. -/

namespace Sys2Proof.Laws.EncodesIntoItsRow

/-- The encoder and the mask-and-match table, two readings of R123, agree on this command. -/
def Statement (i : Instr) : Prop :=
  ∀ pm, i.WellFormed pm → ∃ row ∈ opTable, row.mnemonic = i.mnemonic ∧ row.matches pm (encode i) = true

/-- A word built from fields is legal for a row where each field is, masked by the row's mask, the row's match. -/
theorem row_matches {row : OpRow} {pm : Nat} {o l o' l' o'' l'' : BitVec 8} {d d' d'' : BitVec 16}
    (hm : row.mask = enc o' l' d') (hp : row.pattern = enc o'' l'' d'') (ho : o &&& o' = o'')
    (hl : l &&& l' = l'') (hd : d &&& d' = d'') (hc : row.holds pm (enc o l d) = true) :
    row.matches pm (enc o l d) = true := by
  unfold OpRow.matches
  rw [hm, hp, enc_and, ho, hl, hd, hc, beq_self_eq_true, Bool.true_and]

theorem mode_mbz : ∀ mc : BitVec 2, mc.setWidth 8 &&& 0xFC#8 = 0#8 := by decide

theorem byte_mbz : ∀ b : Byte, b.setWidth 16 &&& 0xFF00#16 = 0#16 := by decide

theorem setMode (mc : BitVec 2) : Statement (.setMode mc) := fun pm _ =>
  ⟨⟨"SET_MODE", 0x01000000#32, 0xFFFCFFFF#32, fun _ _ => true⟩, by simp [opTable], rfl,
    row_matches (o' := 0xFF#8) (l' := 0xFC#8) (d' := 0xFFFF#16) (o'' := 1#8) (l'' := 0#8) (d'' := 0#16) rfl rfl rfl
      (mode_mbz mc) rfl rfl⟩

theorem setField (f : Field) (v : BitVec 16) : Statement (.setField f v) := fun pm _ =>
  ⟨⟨"SET_FIELD", 0x02000000#32, 0xFFF00000#32, fun _ _ => true⟩, by simp [opTable], rfl,
    row_matches (o' := 0xFF#8) (l' := 0xF0#8) (d' := 0#16) (o'' := 2#8) (l'' := 0#8) (d'' := 0#16) rfl rfl rfl
      (by cases f <;> rfl) BitVec.and_zero rfl⟩

theorem getField (f : Field) : Statement (.getField f) := fun pm _ =>
  ⟨⟨"GET_FIELD", 0x03000000#32, 0xFFF0FFFF#32, fun _ _ => true⟩, by simp [opTable], rfl,
    row_matches (o' := 0xFF#8) (l' := 0xF0#8) (d' := 0xFFFF#16) (o'' := 3#8) (l'' := 0#8) (d'' := 0#16) rfl rfl rfl
      (by cases f <;> rfl) rfl rfl⟩

theorem loadReg (r : Reg) (b : Byte) : Statement (.loadReg r b) := fun pm _ =>
  ⟨⟨"LOAD_REG", 0x04000000#32, 0xFFF8FF00#32, fun _ w => (w.extractLsb' 16 3).toNat ≤ 5⟩, by simp [opTable], rfl,
    row_matches (o' := 0xFF#8) (l' := 0xF8#8) (d' := 0xFF00#16) (o'' := 4#8) (l'' := 0#8) (d'' := 0#16) rfl rfl rfl
      (by cases r <;> rfl) (byte_mbz b) (by
        have h : (enc 0x04#8 (r.id.setWidth 8) (b.setWidth 16)).extractLsb' 16 3 = r.id := by
          have hs : ∀ w : Word, w.extractLsb' 16 3 = (Word.sel w).extractLsb' 0 3 := by
            intro w
            apply BitVec.eq_of_getLsbD_eq
            intro i hi
            simp [Word.sel, hi]
            omega
          rw [hs, sel_enc]
          cases r <;> rfl
        simp only [h]
        cases r <;> rfl)⟩

theorem noiseDbm (raw : BitVec 9) : Statement (.noiseDbm raw) := fun pm _ =>
  ⟨⟨"NOISE_DBM", 0x05000000#32, 0xFFFFFE00#32, fun _ _ => true⟩, by simp [opTable], rfl,
    row_matches (o' := 0xFF#8) (l' := 0xFF#8) (d' := 0xFE00#16) (o'' := 5#8) (l'' := 0#8) (d'' := 0#16) rfl rfl rfl rfl
      (by
        apply BitVec.eq_of_getLsbD_eq
        intro i hi
        by_cases h9 : i < 9
        · have : (0xFE00#16).getLsbD i = false := by interval_cases i <;> rfl
          simp [this]
        · simp only [BitVec.getLsbD_and, BitVec.getLsbD_setWidth, BitVec.getLsbD_of_ge raw i (by omega)]
          simp)
      rfl⟩

theorem readParams : Statement .readParams := fun pm _ =>
  ⟨⟨"READ_PARAMS", 0x10000000#32, 0xFFFFFFFF#32, fun _ _ => true⟩, by simp [opTable], rfl, rfl⟩

theorem saveParams (p : Persistence) : Statement (.saveParams p) := fun pm _ =>
  ⟨⟨"SAVE_PARAMS", 0x11000000#32, 0xFFFEFFFF#32, fun _ _ => true⟩, by simp [opTable], rfl, by cases p <;> rfl⟩

theorem setCryptKey (key : BitVec 16) : Statement (.setCryptKey key) := fun pm _ =>
  ⟨⟨"SET_CRYPT_KEY", 0x12000000#32, 0xFFFF0000#32, fun _ _ => true⟩, by simp [opTable], rfl,
    row_matches (o' := 0xFF#8) (l' := 0xFF#8) (d' := 0#16) (o'' := 0x12#8) (l'' := 0#8) (d'' := 0#16) rfl rfl rfl rfl
      BitVec.and_zero rfl⟩

/-- The value constraint of SEND and RECEIVE reads the DATA field. -/
theorem size_constraint {pm : Nat} {op sel : BitVec 8} {n : BitVec 16} (h : n.toNat ≤ pm) :
    decide (((enc op sel n).extractLsb' 0 16).toNat ≤ pm) = true := by
  have hd : (enc op sel n).extractLsb' 0 16 = n := data_enc op sel n
  rw [hd, decide_eq_true h]

theorem send (n : BitVec 16) : Statement (.send n) := fun pm h =>
  ⟨⟨"SEND", 0x13000000#32, 0xFFFF0000#32, fun pm w => (w.extractLsb' 0 16).toNat ≤ pm⟩, by simp [opTable], rfl,
    row_matches (o' := 0xFF#8) (l' := 0xFF#8) (d' := 0#16) (o'' := 0x13#8) (l'' := 0#8) (d'' := 0#16) rfl rfl rfl rfl
      BitVec.and_zero (size_constraint h)⟩

theorem receive (n : BitVec 16) : Statement (.receive n) := fun pm h =>
  ⟨⟨"RECEIVE", 0x14000000#32, 0xFFFF0000#32, fun pm w => (w.extractLsb' 0 16).toNat ≤ pm⟩, by simp [opTable], rfl,
    row_matches (o' := 0xFF#8) (l' := 0xFF#8) (d' := 0#16) (o'' := 0x14#8) (l'' := 0#8) (d'' := 0#16) rfl rfl rfl rfl
      BitVec.and_zero (size_constraint h)⟩

theorem queryRssi : Statement .queryRssi := fun pm _ =>
  ⟨⟨"QUERY_RSSI", 0x15000000#32, 0xFFFFFFFF#32, fun _ _ => true⟩, by simp [opTable], rfl, rfl⟩

end Sys2Proof.Laws.EncodesIntoItsRow
end

