-- ==== Sys2Proof/Laws/Run.lean ====
section
/-! SUPPORT. Runs along an agenda: the block's step does not look at the agenda, and a list of moves takes a state to
another (`Does`), which composes. -/

namespace Sys2Proof.Machine

/-- The same state with another agenda. -/
def State.withAgenda (s : State) (a : List Move) : State := { s with agenda := a }

/-- The same outcome, its next state with another agenda. -/
def nextWithAgenda (a : List Move) : Host.Outcome State Fault Refusal → Host.Outcome State Fault Refusal
  | .next t => .next (t.withAgenda a)
  | .fault x => .fault x
  | .refused r => .refused r

section Agenda

variable (l : List Move) (s : State)

theorem State.elapsed_iff (t : Nat) : s.elapsed t = true ↔ t ≤ s.tmr.toNat := by simp [State.elapsed]

theorem State.withAgenda_ite (c : Prop) [Decidable c] (a b : State) :
    (if c then a else b).withAgenda l = if c then a.withAgenda l else b.withAgenda l := by split <;> rfl

theorem State.delay_withAgenda (t : Nat) (k : Label) :
    (s.withAgenda l).delay t k = (s.delay t k).withAgenda l := by
  unfold State.delay
  rw [State.withAgenda_ite]
  rfl

theorem State.waitRx_withAgenda (t : Nat) (k k' : Bool → State) (h : ∀ b, k' b = (k b).withAgenda l) :
    (s.withAgenda l).waitRx t k' = (s.waitRx t k).withAgenda l := by
  unfold State.waitRx
  rw [State.withAgenda_ite, State.withAgenda_ite, h, h]
  rfl

theorem State.drain_withAgenda (k : Label) : (s.withAgenda l).drain k = (s.drain k).withAgenda l := by
  unfold State.drain
  rw [show (s.withAgenda l).rxq = s.rxq from rfl]
  cases s.rxq
  · rfl
  · dsimp only
    rw [State.withAgenda_ite]
    rfl

theorem State.busyWait_withAgenda (k : Label) : (s.withAgenda l).busyWait k = (s.busyWait k).withAgenda l := by
  unfold State.busyWait
  rw [State.withAgenda_ite, State.withAgenda_ite, State.withAgenda_ite, State.delay_withAgenda]
  rfl

theorem State.rxRead_withAgenda (b n : Nat) (k : Label) :
    (s.withAgenda l).rxRead b n k = (s.rxRead b n k).withAgenda l := by
  unfold State.rxRead
  rw [show (s.withAgenda l).rxq = s.rxq from rfl]
  cases s.rxq
  · dsimp only
    rw [State.withAgenda_ite, State.withAgenda_ite]
    rfl
  · dsimp only
    rw [State.withAgenda_ite]
    rfl

theorem State.txWrite_withAgenda (n : Nat) (k : Label) :
    (s.withAgenda l).txWrite n k = (s.txWrite n k).withAgenda l := by
  unfold State.txWrite
  rw [show (s.withAgenda l).txAns = s.txAns from rfl]
  cases s.txAns <;> dsimp only <;> rw [State.withAgenda_ite, State.withAgenda_ite] <;> rfl

theorem State.setModeStep_withAgenda : (s.withAgenda l).setModeStep = nextWithAgenda l s.setModeStep := by
  unfold State.setModeStep
  rw [show (s.withAgenda l).upc = s.upc from rfl]
  split <;> simp only [nextWithAgenda] <;> try congr 1
  · exact State.delay_withAgenda l s _ _
  · have h : ∀ a b : State, ∀ k,
        (if s.smt = 3#2 ∧ s.autobaudEn = true ∧ s.configuredBaud ≠ Config.progBaud then a else b).goto k =
          if s.smt = 3#2 ∧ s.autobaudEn = true ∧ s.configuredBaud ≠ Config.progBaud then a.goto k else b.goto k := by
      intro a b k
      split <;> rfl
    unfold State.switchToProgBaud
    exact (h _ _ _).trans (by rw [h, State.withAgenda_ite]; rfl)
  · have h : ∀ a b : State, ∀ k,
        (if s.smt ≠ 3#2 ∧ s.autobaudEn = true ∧ s.curBaud ≠ s.configuredBaud then a else b).goto k =
          if s.smt ≠ 3#2 ∧ s.autobaudEn = true ∧ s.curBaud ≠ s.configuredBaud then a.goto k else b.goto k := by
      intro a b k
      split <;> rfl
    unfold State.restoreBaud
    exact (h _ _ _).trans (by rw [h, State.withAgenda_ite]; rfl)
  · exact State.delay_withAgenda l s _ _
  · exact State.drain_withAgenda l s _
  · exact State.busyWait_withAgenda l s _
  · unfold State.recordMode
    rw [show (s.withAgenda l).ret = s.ret from rfl]
    cases s.ret <;> rfl

/-- The block's step does not look at the agenda. -/
theorem exec_withAgenda (i : Instr) : exec i (s.withAgenda l) = nextWithAgenda l (exec i s) := by
  have e : (s.withAgenda l).upc = s.upc := rfl
  cases i
  case setMode => exact State.setModeStep_withAgenda l s
  all_goals simp only [exec, execSetField, execGetField, execLoadReg, execNoiseDbm, execReadParams, execSaveParams,
    execSetCryptKey, execSend, execReceive, execQueryRssi]
  all_goals rw [e]
  all_goals split
  all_goals first
    | rfl
    | exact State.setModeStep_withAgenda l s
    | exact congrArg _ (State.delay_withAgenda l s _ _)
    | exact congrArg _ (State.txWrite_withAgenda l s _ _)
    | exact congrArg _ (State.rxRead_withAgenda l s _ _ _)
    | exact congrArg _ (State.busyWait_withAgenda l s _)
    | exact congrArg _ (State.waitRx_withAgenda l s _ _ _ (fun _ => rfl))
    | (simp only [nextWithAgenda]; rw [State.withAgenda_ite]; rfl)
    | (simp only [nextWithAgenda]; rw [State.withAgenda_ite, State.withAgenda_ite]; rfl)
    | skip
  · unfold State.rssiPoll
    simp only [nextWithAgenda]
    rw [State.withAgenda_ite]
    congr 1
    by_cases hc : s.img.rssiByteEn = 1#1
    · rw [if_pos hc, if_pos (show (s.withAgenda l).img.rssiByteEn = 1#1 from hc)]
      exact State.waitRx_withAgenda l s _ _ _ (fun _ => rfl)
    · rw [if_neg hc, if_neg (show ¬ (s.withAgenda l).img.rssiByteEn = 1#1 from hc)]
      rfl
  · unfold State.rssiTake
    rw [show (s.withAgenda l).rxq = s.rxq from rfl]
    by_cases hc : s.img.rssiByteEn = 1#1 ∧ s.wto = false
    · rw [if_pos hc, if_pos (show (s.withAgenda l).img.rssiByteEn = 1#1 ∧ (s.withAgenda l).wto = false from hc)]
      cases s.rxq <;> rfl
    · rw [if_neg hc,
        if_neg (show ¬ ((s.withAgenda l).img.rssiByteEn = 1#1 ∧ (s.withAgenda l).wto = false) from hc)]
      rfl

end Agenda

/-- The moves take `s` to `t`, whatever the agenda holds behind them. -/
def Does (ms : List Move) (s t : State) : Prop :=
  ∀ rest, Sys2Proof.core.run ms.length (s.withAgenda (ms ++ rest)) = .next (t.withAgenda rest)

theorem Does.nil (s : State) : Does [] s s := fun _ => rfl

theorem run_succ {s u : State} (h : step s = .next u) (k : Nat) :
    Sys2Proof.core.run (k + 1) s = Sys2Proof.core.run k u := by
  have h' : Sys2Proof.core.step s = .next u := h
  simp only [Host.Core.run, h']

theorem run_add {s u : State} {j : Nat} (h : Sys2Proof.core.run j s = .next u) (k : Nat) :
    Sys2Proof.core.run (j + k) s = Sys2Proof.core.run k u := by
  induction j generalizing s with
  | zero =>
    have : s = u := by injection h
    rw [this, Nat.zero_add]
  | succ j ih =>
    cases hx : Sys2Proof.core.step s with
    | next v =>
      rw [run_succ hx] at h
      rw [Nat.succ_add, run_succ hx, ih h]
    | fault r => simp [Host.Core.run, hx] at h
    | refused r => simp [Host.Core.run, hx] at h

theorem Does.trans {ms ms' : List Move} {s t u : State} (h : Does ms s t) (h' : Does ms' t u) :
    Does (ms ++ ms') s u := by
  intro rest
  rw [List.length_append, List.append_assoc, run_add (h (ms' ++ rest)), h' rest]

theorem Does.of_perform {m : Move} {s t : State}
    (h : ∀ rest, (s.withAgenda rest).perform m = .next (t.withAgenda rest)) : Does [m] s t := by
  intro rest
  exact run_succ (show step (s.withAgenda (m :: rest)) = .next (t.withAgenda rest) from h rest) 0

/-- One micro-step of the running command. -/
theorem Does.block {s t : State} {i : Instr} (hu : s.upc ≠ .idle)
    (hd : decode s.par.payloadMax s.cmdlat = .ok i) (h : exec i s = .next t) : Does [.block] s t := by
  refine Does.of_perform fun rest => ?_
  have : exec i (s.withAgenda rest) = .next (t.withAgenda rest) := by rw [exec_withAgenda, h]; rfl
  rw [← this]
  change (if s.upc = .idle then _ else match decode s.par.payloadMax s.cmdlat with
    | .ok i => exec i (s.withAgenda rest)
    | .error _ => .fault .latchIllegal) = _
  rw [if_neg hu, hd]

/-- Ticks that the step at UPC counts (R22, R186). -/
theorem Does.ticks {s : State} (hu : s.timedAt s.upc = true) (n : Nat) (h : s.tmr.toNat + n < 2 ^ 32) :
    Does (ticks n) s { s with tmr := s.tmr + BitVec.ofNat 32 n } := by
  induction n generalizing s with
  | zero =>
    rw [show s.tmr + BitVec.ofNat 32 0 = s.tmr from BitVec.add_zero s.tmr]
    exact Does.nil s
  | succ n ih =>
    have h1 : s.tmr ≠ BitVec.allOnes 32 := by
      intro h'
      have : s.tmr.toNat = 2 ^ 32 - 1 := by rw [h']; rfl
      omega
    have h2 : (s.tmr + 1#32).toNat = s.tmr.toNat + 1 := by
      rw [BitVec.toNat_add, Nat.mod_eq_of_lt]
      · rfl
      · change s.tmr.toNat + 1 < 2 ^ 32
        omega
    have hs : Does [.tick] s { s with tmr := s.tmr + 1#32 } := by
      refine Does.of_perform fun rest => ?_
      change Host.Outcome.next (s.withAgenda rest).tick = _
      unfold State.tick
      rw [if_pos (show (s.withAgenda rest).timedAt (s.withAgenda rest).upc = true from hu),
        if_neg (show ¬ (s.withAgenda rest).tmr = BitVec.allOnes 32 from h1)]
      rfl
    have := hs.trans (ih (s := { s with tmr := s.tmr + 1#32 }) hu (by
      change (s.tmr + 1#32).toNat + n < 2 ^ 32
      omega))
    have e : s.tmr + 1#32 + BitVec.ofNat 32 n = s.tmr + BitVec.ofNat 32 (n + 1) := by
      rw [BitVec.add_assoc, BitVec.ofNat_add, BitVec.add_comm 1#32]
    change Does _ s { s with tmr := s.tmr + 1#32 + BitVec.ofNat 32 n } at this
    rw [e] at this
    exact this

/-- A byte arrives (R53). -/
theorem Does.rxByte (s : State) (b : Byte) : Does [.rxByte b] s { s with rxq := s.rxq ++ [b] } :=
  Does.of_perform fun _ => rfl

/-- The environment answers (R96). -/
theorem Does.txAnswer (s : State) (w : BitVec 16) : Does [.txAnswer w] s (s.txAnswer w) := by
  refine Does.of_perform fun rest => congrArg (fun u : State => Host.Outcome.next u) ?_
  unfold State.txAnswer
  rw [show (s.withAgenda rest).offered = s.offered from rfl]
  rcases s.offered with _ | ⟨b, n⟩
  · rfl
  · dsimp only
    rw [State.withAgenda_ite]
    rfl

/-- Delay(t) that starts at TMR = 0 and ends as soon as it may (R187). -/
theorem Does.delay {s : State} {i : Instr} {t : Nat} {k : Label} (hu : s.upc ≠ .idle)
    (hp : s.timedAt s.upc = true) (hd : decode s.par.payloadMax s.cmdlat = .ok i) (hz : s.tmr = 0#32)
    (ht : t < 2 ^ 32) (hx : ∀ u : State, u.upc = s.upc → u.par = s.par → exec i u = .next (u.delay t k)) :
    Does (Machine.ticks t ++ [.block]) s (({ s with tmr := BitVec.ofNat 32 t } : State).goto k) := by
  have h1 := Does.ticks hp t (by rw [hz]; simpa using ht)
  rw [hz, BitVec.zero_add] at h1
  refine h1.trans (Does.block hu hd ?_)
  refine (hx { s with tmr := BitVec.ofNat 32 t } rfl rfl).trans (congrArg _ ?_)
  unfold State.delay
  rw [if_pos]
  rw [State.elapsed_iff]
  change t ≤ t % 2 ^ 32
  rw [Nat.mod_eq_of_lt ht]

/-- Bytes that arrive one by one and are taken as they arrive (R99). -/
theorem Does.rxBytes {s : State} {i : Instr} {base n : Nat} {k : Label} (hu : s.upc ≠ .idle)
    (hd : decode s.par.payloadMax s.cmdlat = .ok i) (hq : s.rxq = [])
    (hx : ∀ u : State, u.upc = s.upc → u.cmdlat = s.cmdlat → exec i u = .next (u.rxRead base n k))
    (reply : List Byte) (hl : s.got.toNat + reply.length ≤ n) (hn : n < 2 ^ 16) :
    Does (reply.flatMap fun b => [.rxByte b, .block]) s
      { s with
        mem := s.mem.writeBytes (base + s.got.toNat) reply
        got := s.got + BitVec.ofNat 16 reply.length
        tmr := if reply = [] then s.tmr else 0#32 } := by
  induction reply generalizing s with
  | nil =>
    have : s.got + BitVec.ofNat 16 0 = s.got := BitVec.add_zero s.got
    simp only [List.length_nil, this]
    exact Does.nil s
  | cons b bs ih =>
    simp only [List.length_cons] at hl
    have hg : (s.got + 1#16).toNat = s.got.toNat + 1 := by
      rw [BitVec.toNat_add, Nat.mod_eq_of_lt]
      · rfl
      · change s.got.toNat + 1 < 2 ^ 16
        omega
    let u : State := { s with mem := s.mem.write (base + s.got.toNat) b, got := s.got + 1#16, tmr := 0#32 }
    have h1 : Does [.rxByte b, .block] s u := by
      refine (Does.rxByte s b).trans (Does.block (i := i) hu hd ?_)
      refine (hx { s with rxq := s.rxq ++ [b] } rfl rfl).trans (congrArg _ ?_)
      unfold State.rxRead
      have : ¬ s.got.toNat = n := by omega
      dsimp only
      rw [if_neg this, hq]
      simp only [List.nil_append]
      rw [← hq]
      rfl
    have h2 := ih (s := u) hu hd hq hx (by change (s.got + 1#16).toNat + _ ≤ n; omega)
    have h3 := h1.trans h2
    have e1 : base + u.got.toNat = base + s.got.toNat + 1 := by
      change base + (s.got + 1#16).toNat = _
      omega
    have e2 : u.got + BitVec.ofNat 16 bs.length = s.got + BitVec.ofNat 16 (bs.length + 1) := by
      change s.got + 1#16 + _ = _
      rw [BitVec.add_assoc, BitVec.ofNat_add, BitVec.add_comm 1#16]
    rw [e1, e2] at h3
    simp only [List.length_cons, List.flatMap_cons, List.cons_ne_nil, if_false]
    have e3 : (if bs = [] then u.tmr else 0#32) = 0#32 := by split <;> rfl
    rw [e3] at h3
    exact h3

/-- A whole SET_MODE from SM1, on a quiet link, each delay as long as it has to be (R181). -/
theorem Does.setMode {s : State} {i : Instr} (hx : ∀ u : State, u.upc.isSetMode = true → exec i u = u.setModeStep)
    (hd : decode s.par.payloadMax s.cmdlat = .ok i) (hu : s.upc = .sm1) (hz : s.tmr = 0#32) (hr : s.par.Reachable)
    (hq : s.Quiet) :
    Does (setModeMoves s.par) s
      (({ s with
          m0 := s.smt.extractLsb' 0 1
          m1 := s.smt.extractLsb' 1 1
          baudlog := s.switchToProgBaud.restoreBaud.baudlog
          curBaud := s.switchToProgBaud.restoreBaud.curBaud
          tmr := if s.par.hasAux then 0#32 else BitVec.ofNat 32 s.par.tBlind
          upc := .sm8 } : State).recordMode) := by
  obtain ⟨h1, h2, h3, h4, -⟩ := hr
  have d1 := Does.delay (s := s) (i := i) (t := s.par.tPre) (k := .sm2) (by simp [hu]) (by simp [State.timedAt, State.primAt, hu, Prim.timed]) hd hz h1
    (by intro u e1 e2; rw [hx u (by simp [e1, hu, Label.isSetMode])]; simp [State.setModeStep, e1, hu, e2])
  generalize hs1 : ({ s with tmr := BitVec.ofNat 32 s.par.tPre } : State).goto .sm2 = s1 at d1
  have d2 : Does [.block] s1 ((s1.pins s1.smt).goto .sm3) := Does.block (i := i) (by rw [← hs1]; simp) (by rw [← hs1]; exact hd)
    (by rw [hx s1 (by rw [← hs1]; rfl), ← hs1]; rfl)
  generalize hs2 : (s1.pins s1.smt).goto .sm3 = s2 at d2
  have d3 : Does [.block] s2 (s2.switchToProgBaud.goto .sm4) := Does.block (i := i) (by rw [← hs2]; simp) (by rw [← hs2, ← hs1]; exact hd)
    (by rw [hx s2 (by rw [← hs2]; rfl), ← hs2]; rfl)
  generalize hs3 : s2.switchToProgBaud.goto .sm4 = s3 at d3
  have p3 : s2.switchToProgBaud.par = s2.par ∧ s2.switchToProgBaud.cmdlat = s2.cmdlat := by
    unfold State.switchToProgBaud; split <;> exact ⟨rfl, rfl⟩
  have d4 : Does [.block] s3 (s3.restoreBaud.goto .sm5) := Does.block (i := i) (by rw [← hs3]; simp) (by rw [← hs3]; simp only [State.goto_par, State.goto_cmdlat]; rw [p3.1, p3.2, ← hs2, ← hs1]; exact hd)
    (by rw [hx s3 (by rw [← hs3]; rfl)]; unfold State.setModeStep; rw [← hs3]; rfl)
  have e3 : s3 = { s with m0 := s.smt.extractLsb' 0 1, m1 := s.smt.extractLsb' 1 1, baudlog := s.switchToProgBaud.baudlog, curBaud := s.switchToProgBaud.curBaud, tmr := BitVec.ofNat 32 s.par.tPre, upc := .sm4 } := by
    rw [← hs3, ← hs2, ← hs1]; unfold State.switchToProgBaud
    by_cases hc : s.smt = 3#2 ∧ s.autobaudEn = true ∧ s.configuredBaud ≠ Config.progBaud
    · rw [if_pos hc]
      have : ∀ a b : State, ∀ k, (if s.smt = 3#2 ∧ s.autobaudEn = true ∧ s.configuredBaud ≠ Config.progBaud then a else b).goto k = a.goto k := by intro a b k; rw [if_pos hc]
      exact this _ _ _
    · rw [if_neg hc]
      have : ∀ a b : State, ∀ k, (if s.smt = 3#2 ∧ s.autobaudEn = true ∧ s.configuredBaud ≠ Config.progBaud then a else b).goto k = b.goto k := by intro a b k; rw [if_neg hc]
      exact this _ _ _
  have e4 : s3.restoreBaud.goto .sm5 = { s with m0 := s.smt.extractLsb' 0 1, m1 := s.smt.extractLsb' 1 1, baudlog := s.switchToProgBaud.restoreBaud.baudlog, curBaud := s.switchToProgBaud.restoreBaud.curBaud, tmr := 0#32, upc := .sm5 } := by
    rw [e3]
    have e : s.switchToProgBaud.restoreBaud = if s.smt ≠ 3#2 ∧ s.autobaudEn = true ∧ s.switchToProgBaud.curBaud ≠ s.configuredBaud then s.switchToProgBaud.baudReq s.configuredBaud else s.switchToProgBaud := by
      unfold State.switchToProgBaud
      split <;> rfl
    have x1 : s.switchToProgBaud.par = s.par := by unfold State.switchToProgBaud; split <;> rfl
    rw [e]
    by_cases hc : s.smt ≠ 3#2 ∧ s.autobaudEn = true ∧ s.switchToProgBaud.curBaud ≠ s.configuredBaud
    · rw [if_pos hc]
      have : ∀ a b : State, ∀ k, (if s.smt ≠ 3#2 ∧ s.autobaudEn = true ∧ s.switchToProgBaud.curBaud ≠ s.configuredBaud then a else b).goto k = a.goto k := by intro a b k; rw [if_pos hc]
      exact this _ _ _
    · rw [if_neg hc]
      have : ∀ a b : State, ∀ k, (if s.smt ≠ 3#2 ∧ s.autobaudEn = true ∧ s.switchToProgBaud.curBaud ≠ s.configuredBaud then a else b).goto k = b.goto k := by intro a b k; rw [if_neg hc]
      exact this _ _ _
  rw [e4] at d4
  clear e3 hs3 hs2 hs1 p3 e4
  generalize s.switchToProgBaud.restoreBaud.baudlog = BL at *
  generalize s.switchToProgBaud.restoreBaud.curBaud = CB at *
  generalize hs4 : ({ s with m0 := s.smt.extractLsb' 0 1, m1 := s.smt.extractLsb' 1 1, baudlog := BL, curBaud := CB, tmr := 0#32, upc := .sm5 } : State) = s4 at d4
  have d5 := Does.delay (s := s4) (i := i) (t := s.par.tPost) (k := .sm6) (by rw [← hs4]; simp) (by rw [← hs4]; rfl) (by rw [← hs4]; exact hd) (by rw [← hs4]) h2
    (by rw [← hs4]; intro u e1 e2; rw [hx u (by rw [e1]; rfl)]; simp only [State.setModeStep, e1, e2])
  generalize hs5 : ({ s4 with tmr := BitVec.ofNat 32 s.par.tPost } : State).goto .sm6 = s5 at d5
  have d6 : Does [.block] s5 (s5.goto .sm7) := Does.block (i := i) (by rw [← hs5]; simp) (by rw [← hs5, ← hs4]; exact hd)
    (by
      rw [hx s5 (by rw [← hs5]; rfl)]; unfold State.setModeStep State.drain
      have : s5.rxq = [] := by rw [← hs5, ← hs4]; exact hq.1
      rw [this, ← hs5]; rfl)
  generalize hs6 : s5.goto .sm7 = s6 at d6
  have d7 : Does ((if s.par.hasAux then [] else Machine.ticks s.par.tBlind) ++ [.block]) s6 (({s6 with tmr := if s.par.hasAux then 0#32 else BitVec.ofNat 32 s.par.tBlind} : State).goto .sm8) := by
    by_cases ha : s.par.hasAux = true
    · rw [if_pos ha, if_pos ha]
      have hq2 := hq.2 ha
      refine Does.block (i := i) (by rw [← hs6]; simp) (by rw [← hs6, ← hs5, ← hs4]; exact hd) ?_
      rw [hx s6 (by rw [← hs6]; rfl), ← hs6, ← hs5, ← hs4]
      simp [State.setModeStep, State.busyWait, ha, hq2, State.timedAt, State.primAt, Prim.timed, State.goto, Label.reads]
    · rw [if_neg ha, if_neg ha]
      refine Does.delay (i := i) (by rw [← hs6]; simp) (by rw [← hs6, ← hs5]; rfl) (by rw [← hs6, ← hs5, ← hs4]; exact hd) (by rw [← hs6, ← hs5]; rfl) h4 ?_
      rw [← hs6, ← hs5, ← hs4]
      intro u e1 e2
      rw [hx u (by rw [e1]; rfl)]
      have : u.par.hasAux = false := by rw [e2]; simpa using ha
      simp [State.setModeStep, e1, State.busyWait, this]
      rw [e2]; rfl
  generalize hs7 : ({s6 with tmr := if s.par.hasAux then 0#32 else BitVec.ofNat 32 s.par.tBlind} : State).goto .sm8 = s7 at d7
  have d8 : Does [.block] s7 s7.recordMode := Does.block (i := i) (by rw [← hs7]; simp) (by rw [← hs7, ← hs6, ← hs5, ← hs4]; exact hd)
    (by rw [hx s7 (by rw [← hs7]; rfl)]; unfold State.setModeStep; rw [← hs7]; rfl)
  have dd := d1.trans (d2.trans (d3.trans (d4.trans (d5.trans (d6.trans (d7.trans d8))))))
  have em : setModeMoves s.par = (Machine.ticks s.par.tPre ++ [Move.block]) ++ ([.block] ++ ([.block] ++ ([.block] ++ ((Machine.ticks s.par.tPost ++ [Move.block]) ++ ([.block] ++ (((if s.par.hasAux then [] else Machine.ticks s.par.tBlind) ++ [Move.block]) ++ [.block])))))) := by
    simp [setModeMoves, List.append_assoc]
  rw [em]
  convert dd using 1
  rw [← hs7, ← hs6, ← hs5, ← hs4]; rfl

/-- A TxWrite of at least one byte that the environment answers (R96). -/
theorem Does.txWrite {s : State} {i : Instr} {base n : Nat} {k : Label} (hu : s.upc ≠ .idle)
    (hd : decode s.par.payloadMax s.cmdlat = .ok i) (hp : s.primAt s.upc = some (.txWrite base n)) (hn : 0 < n)
    (ht : s.txpend = false) (hz : s.txAns = none) (w : BitVec 16) (hw : w.toNat ≤ n)
    (hx : ∀ u : State, u.upc = s.upc → u.cmdlat = s.cmdlat → exec i u = .next (u.txWrite n k)) :
    Does (txMoves w) s
      (({ s with
          wcount := w
          txlog := s.txlog ++ (s.mem.bytes base w.toNat).map (fun b => (b, s.modeCode)) } : State).goto k) := by
  have hn' : ¬ n = 0 := by omega
  have d1 : Does [.block] s { s with txpend := true } := by
    refine Does.block hu hd ((hx s rfl rfl).trans (congrArg _ ?_))
    unfold State.txWrite
    rw [if_neg hn', ht, hz]
    rfl
  have d2 := Does.txAnswer { s with txpend := true } w
  have e2 : ({ s with txpend := true } : State).txAnswer w =
      { s with
        txlog := s.txlog ++ (s.mem.bytes base w.toNat).map (fun b => (b, s.modeCode))
        txAns := some w } := by
    unfold State.txAnswer
    rw [show ({ s with txpend := true } : State).offered = some (base, n) by
      unfold State.offered
      rw [if_pos rfl, show ({ s with txpend := true } : State).primAt s.upc = s.primAt s.upc from rfl, hp]]
    dsimp only
    rw [if_pos hw, ← ht]
    rfl
  rw [e2] at d2
  have d3 : Does [.block] _ _ := Does.block (i := i) (s := { s with
        txlog := s.txlog ++ (s.mem.bytes base w.toNat).map (fun b => (b, s.modeCode))
        txAns := some w }) hu hd (hx _ rfl rfl)
  have e3 : ({ s with
        txlog := s.txlog ++ (s.mem.bytes base w.toNat).map (fun b => (b, s.modeCode))
        txAns := some w } : State).txWrite n k = (({ s with
          wcount := w
          txlog := s.txlog ++ (s.mem.bytes base w.toNat).map (fun b => (b, s.modeCode)) } : State).goto k) := by
    unfold State.txWrite
    rw [if_neg hn', if_neg (by dsimp only; rw [ht]; decide)]
    dsimp only
    rw [← hz]
  rw [e3] at d3
  exact d1.trans (d2.trans d3)

/-- An RxRead of n bytes in which the reply arrives, and then silence (R99); some bytes may have come before. -/
theorem Does.rxRead {s : State} {i : Instr} {base n : Nat} {k : Label} (hu : s.upc ≠ .idle)
    (hd : decode s.par.payloadMax s.cmdlat = .ok i) (hp : s.timedAt s.upc = true) (hq : s.rxq = [])
    (hz : s.tmr = 0#32) (hr : s.par.rxTimeout < 2 ^ 32)
    (hx : ∀ u : State, u.upc = s.upc → u.cmdlat = s.cmdlat → exec i u = .next (u.rxRead base n k))
    (reply : List Byte) (hl : s.got.toNat + reply.length ≤ n) (hn : n < 2 ^ 16) :
    Does (rxMoves s.par (n - s.got.toNat) reply) s
      (({ s with
          mem := s.mem.writeBytes (base + s.got.toNat) reply
          got := s.got + BitVec.ofNat 16 reply.length
          rcount := s.got + BitVec.ofNat 16 reply.length
          tmr := if reply.length = n - s.got.toNat then 0#32 else BitVec.ofNat 32 s.par.rxTimeout } : State).goto k) := by
  have d1 := Does.rxBytes hu hd hq hx reply hl hn
  have t1 : (if reply = [] then s.tmr else 0#32) = 0#32 := by rw [hz]; split <;> rfl
  rw [t1] at d1
  have hgn : (s.got + BitVec.ofNat 16 reply.length).toNat = s.got.toNat + reply.length := by
    rw [BitVec.toNat_add, BitVec.toNat_ofNat]
    omega
  generalize hs1 : ({ s with
    mem := s.mem.writeBytes (base + s.got.toNat) reply
    got := s.got + BitVec.ofNat 16 reply.length
    tmr := 0#32 } : State) = s1 at d1
  have d2 : Does (if reply.length = n - s.got.toNat then [] else Machine.ticks s.par.rxTimeout) s1
      { s1 with tmr := if reply.length = n - s.got.toNat then 0#32 else BitVec.ofNat 32 s.par.rxTimeout } := by
    by_cases h : reply.length = n - s.got.toNat
    · rw [if_pos h, if_pos h, ← hs1]
      exact Does.nil _
    · rw [if_neg h, if_neg h]
      have := Does.ticks (s := s1) (by rw [← hs1]; exact hp) s.par.rxTimeout (by rw [← hs1]; simpa using hr)
      rw [show s1.tmr = 0#32 by rw [← hs1], BitVec.zero_add] at this
      exact this
  have d3 : Does [.block]
      { s1 with tmr := if reply.length = n - s.got.toNat then 0#32 else BitVec.ofNat 32 s.par.rxTimeout }
      (({ s with
          mem := s.mem.writeBytes (base + s.got.toNat) reply
          got := s.got + BitVec.ofNat 16 reply.length
          rcount := s.got + BitVec.ofNat 16 reply.length
          tmr := if reply.length = n - s.got.toNat then 0#32 else BitVec.ofNat 32 s.par.rxTimeout } : State).goto k) := by
    refine Does.block (i := i) (by rw [← hs1]; exact hu) (by rw [← hs1]; exact hd) ?_
    refine (hx { s1 with tmr := if reply.length = n - s.got.toNat then 0#32 else BitVec.ofNat 32 s.par.rxTimeout }
      (by rw [← hs1]) (by rw [← hs1])).trans (congrArg _ ?_)
    rw [← hs1]
    unfold State.rxRead
    dsimp only
    rw [hq]
    dsimp only
    by_cases h : reply.length = n - s.got.toNat
    · rw [if_pos (by rw [hgn]; omega), if_pos h, ← hq]
    · rw [if_neg (by rw [hgn]; omega), if_neg h, if_pos, ← hq]
      · rw [State.elapsed_iff]
        change s.par.rxTimeout ≤ s.par.rxTimeout % 2 ^ 32
        rw [Nat.mod_eq_of_lt hr]
  have := d1.trans (d2.trans d3)
  rw [← List.append_assoc] at this
  exact this

/-- An RxRead that has taken nothing yet. -/
theorem Does.rxReadAll {s : State} {i : Instr} {base n : Nat} {k : Label} (hu : s.upc ≠ .idle)
    (hd : decode s.par.payloadMax s.cmdlat = .ok i) (hp : s.timedAt s.upc = true) (hq : s.rxq = [])
    (hg : s.got = 0#16) (hz : s.tmr = 0#32) (hr : s.par.rxTimeout < 2 ^ 32)
    (hx : ∀ u : State, u.upc = s.upc → u.cmdlat = s.cmdlat → exec i u = .next (u.rxRead base n k))
    (reply : List Byte) (hl : reply.length ≤ n) (hn : n < 2 ^ 16) :
    Does (rxMoves s.par n reply) s
      (({ s with
          mem := s.mem.writeBytes base reply
          got := BitVec.ofNat 16 reply.length
          rcount := BitVec.ofNat 16 reply.length
          tmr := if reply.length = n then 0#32 else BitVec.ofNat 32 s.par.rxTimeout } : State).goto k) := by
  have h0 : s.got.toNat = 0 := by rw [hg]; rfl
  have := Does.rxRead hu hd hp hq hz hr hx reply (by rw [h0]; omega) hn
  rw [h0, Nat.sub_zero, Nat.add_zero, hg, BitVec.zero_add] at this
  exact this

/-- BusyWait that finds AUX ready, or waits T_BLIND (R189). -/
theorem Does.busyWait {s : State} {i : Instr} {k : Label} (hu : s.upc ≠ .idle)
    (hd : decode s.par.payloadMax s.cmdlat = .ok i) (hp : s.timedAt s.upc = true) (hz : s.tmr = 0#32)
    (hr : s.par.tBlind < 2 ^ 32) (hq : s.par.hasAux = true → s.aux = s.par.auxReadyLevel)
    (hx : ∀ u : State, u.upc = s.upc → exec i u = .next (u.busyWait k)) :
    Does (busyMoves s.par) s
      (({ s with tmr := if s.par.hasAux then 0#32 else BitVec.ofNat 32 s.par.tBlind } : State).goto k) := by
  unfold busyMoves
  by_cases ha : s.par.hasAux = true
  · rw [if_pos ha, if_pos ha]
    refine Does.block hu hd ((hx s rfl).trans (congrArg _ ?_))
    unfold State.busyWait
    rw [if_pos ha, if_pos (hq ha), ← hz]
  · rw [if_neg ha, if_neg ha]
    refine Does.delay hu hp hd hz hr fun u e1 e2 => (hx u e1).trans (congrArg _ ?_)
    unfold State.busyWait
    rw [if_neg (by rw [e2]; exact ha), e2]

end Sys2Proof.Machine
end

