-- ==== Sys2Proof/Laws/Step.lean ====
section
/-! SUPPORT. Once and for all: what one step of any agent can do to a state. -/

namespace Sys2Proof.Machine

/-- What one step of any agent does, and whose step it is, with what `u` is beforehand: `s`, but for its agenda (and
host program). -/
inductive StepCase (s : State) : State → Prop
  | block (u t : State) (i) (hs : s.blockSteps) (hu : u = s ∨ ∃ rest, u = { s with agenda := rest })
      (hn : s.upc ≠ .idle) (hd : decode s.par.payloadMax s.cmdlat = .ok i) (hx : exec i u = .next t) : StepCase s t
  | access (u t : State) (x) (hx : s.performs x) (hu : ∃ a p, u = { s with agenda := a, prog := p })
      (ht : t = u.access x) : StepCase s t
  | poll (a p b) : StepCase s { s with agenda := a, prog := p, busReads := b }
  | reset (rest d) : s.agenda = .reset d :: rest → StepCase s (({ s with agenda := rest } : State).resetBlock d)
  | tick (u t : State) (hu : u = s ∨ ∃ rest, u = { s with agenda := rest }) (ht : t = u.tick) : StepCase s t
  | env (rest q l) : (q = s.rxq ∨ ∃ b, q = s.rxq ++ [b]) → StepCase s { s with agenda := rest, rxq := q, aux := l }
  | tx (u t : State) (w : BitVec 16) (dr) (hs : s.answers) (hu : u = s ∨ ∃ rest, u = { s with agenda := rest })
      (ht : t = { u.txAnswer w with draws := dr }) : StepCase s t
  | baud (rest) (t) (ht : t = ({ s with agenda := rest } : State).takeBaud) : StepCase s t

/-- Every step is one of these. -/
theorem step_stepCase {s t : State} (h : step s = .next t) : StepCase s t := by
  have pg : ∀ (u : State) (r : List Move), u = { s with agenda := r } →
      (∀ x lines, s.prog = .access x :: lines → s.performs x) → StepCase s u.progStep := by
    intro u r hu hp
    subst hu
    unfold State.progStep
    split
    · exact .poll r s.prog s.busReads
    · next x lines hl => exact .access _ _ x (hp x lines hl) ⟨r, lines, rfl⟩ rfl
    · exact .poll r _ _
  have bl : ∀ (u : State), s.blockSteps → (u = s ∨ ∃ rest, u = { s with agenda := rest }) → u.blockStep = .next t →
      StepCase s t := by
    intro u hs hu hb
    rcases State.blockStep_cases hb with ⟨hi, rfl⟩ | ⟨hi, i, hd, hx⟩
    · rcases hu with rfl | ⟨r, rfl⟩
      · exact .poll t.agenda t.prog t.busReads
      · exact .poll r s.prog s.busReads
    · refine .block u t i hs hu ?_ ?_ hx
      · rcases hu with rfl | ⟨r, rfl⟩ <;> exact hi
      · rcases hu with rfl | ⟨r, rfl⟩ <;> exact hd
  rcases step_cases h with ⟨m, rest, ha, hm⟩ | ⟨ha, hc⟩
  · cases m with
    | access x =>
      simp [State.perform] at hm; subst hm
      exact .access { s with agenda := rest } _ x (.inl ⟨rest, ha⟩) ⟨rest, s.prog, rfl⟩ rfl
    | prog =>
      simp [State.perform] at hm; subst hm
      exact pg _ rest rfl fun x lines hl => .inr (.inl ⟨rest, lines, ha, hl⟩)
    | reset d => simp [State.perform] at hm; subst hm; exact .reset rest d ha
    | block => exact bl _ (.inl ⟨rest, ha⟩) (.inr ⟨rest, rfl⟩) hm
    | tick => simp [State.perform] at hm; subst hm; exact .tick _ _ (.inr ⟨rest, rfl⟩) rfl
    | rxByte b => simp [State.perform] at hm; subst hm; exact .env rest _ s.aux (.inr ⟨b, rfl⟩)
    | auxLevel b => simp [State.perform] at hm; subst hm; exact .env rest _ b (.inl rfl)
    | txAnswer w =>
      simp [State.perform] at hm; subst hm
      exact .tx _ _ w s.draws (.inl ⟨w, rest, ha⟩) (.inr ⟨rest, rfl⟩) (by
        rcases State.txAnswer_cases ({ s with agenda := rest } : State) w with e | ⟨_, _, _, _, _, e⟩ <;> rw [e])
    | takeBaud => simp [State.perform] at hm; subst hm; exact .baud rest _ rfl
  · rcases hc with ⟨he, hbs⟩ | ⟨he, hp, rfl⟩ | ⟨he, hp, hq, rfl⟩ | ⟨he, hp, hq, rfl⟩
    · exact bl s (.inr ⟨ha, he⟩) (.inl rfl) hbs
    · exact .tx s _ s.freeAnswer (s.draws + 1) (.inr ⟨ha, he, hp⟩) (.inl rfl) rfl
    · exact pg s s.agenda rfl fun x lines hl => .inr (.inr ⟨ha, he, hp, lines, hl⟩)
    · exact .tick s _ (.inl rfl) rfl

/-- What a host access changes, and which access it is. -/
theorem State.access_any (u : State) (x) :
    (∃ b, u.access x = { u with busReads := b }) ∨ (∃ v, u.busy = false ∧ u.access x = u.accept v) ∨
      u.access x = { u with overrun := true } ∨
      (∃ a v, x = .write a v ∧ wordAddr a = 0x004 ∧ v.getLsbD 3 = true ∧ u.access x = { u with overrun := false }) ∨
      (∃ a v, x = .write a v ∧ wordAddr a = 0x00C ∧ u.busy = false ∧
        u.access x = { u with autobaudEn := v.getLsbD 0 }) ∨
      (∃ a v, x = .write a v ∧ wordAddr a = 0x010 ∧ u.busy = false ∧ u.access x = { u with curBaud := v }) ∨
      (∃ a v, x = .write a v ∧ inPayloadWindow u.par.payloadMax (wordAddr a) = true ∧ u.busy = false ∧
        u.access x = u.writePayloadWord (wordAddr a) v) := by
  cases x with
  | read a => exact .inl ⟨_, rfl⟩
  | write a v =>
    rcases State.hostWrite_cases u a v with ⟨-, hb, e⟩ | ⟨-, e⟩ | ⟨h1, h2, e⟩ | ⟨h, hb, e⟩ | ⟨h, hb, e⟩ | ⟨h, hb, e⟩ | e
    · exact .inr (.inl ⟨v, hb, e⟩)
    · exact .inr (.inr (.inl e))
    · exact .inr (.inr (.inr (.inl ⟨a, v, rfl, h1, h2, e⟩)))
    · exact .inr (.inr (.inr (.inr (.inl ⟨a, v, rfl, h, hb, e⟩))))
    · exact .inr (.inr (.inr (.inr (.inr (.inl ⟨a, v, rfl, h, hb, e⟩)))))
    · exact .inr (.inr (.inr (.inr (.inr (.inr ⟨a, v, rfl, h, hb, e⟩)))))
    · exact .inl ⟨u.busReads, e⟩

/-- What an acceptance changes. -/
theorem State.accept_any (u : State) (v) : 
    ∃ x : State, u.accept v =
      { u with
        cmdlat := x.cmdlat, busy := x.busy, done := x.done, ok := x.ok, err := x.err, auxTo := x.auxTo,
        drainTo := x.drainTo, wcount := x.wcount, rcount := x.rcount, upc := x.upc, smt := x.smt, ret := x.ret,
        tmr := x.tmr, got := x.got } := by
  refine ⟨u.accept v, ?_⟩
  rcases State.accept_cases u v with ⟨e, -, e'⟩ | ⟨i, -, e'⟩
  · rw [e']; rfl
  · rcases State.start_cases (u.latch v) i with ⟨mc, -, e⟩ | ⟨-, e⟩ <;> rw [e', e] <;> rfl

end Sys2Proof.Machine
end

