-- ==== Sys2Proof/Tests/Slice0.lean ====
section
/-! SUPPORT. Tests. Every expected value is the spec's own: an example or a vector of 95_test_vectors.md (its id is
given), or a word written out by hand from the tables of 30_encoding.md. The second half names, for every statement
with premises, a concrete state that meets them. -/

namespace Sys2Proof.Tests

open Sys2Proof Sys2Proof.Machine

/-- What `f` reads in the next state, where there is one. -/
def look {α : Type} (f : State → α) : Host.Outcome State Fault Refusal → Option α
  | .next t => some (f t)
  | .fault _ => none
  | .refused _ => none

/-- A command word running at a label, in mode NORMAL. -/
def running (w : Word) (l : Label) : State :=
  { State.reset with busy := true, cmdlat := w, upc := l, lastMode := 0#3 }

/-- An idle machine in mode NORMAL, with moves to come. -/
def idle (moves : List Move) : State := { State.reset with lastMode := 0#3, agenda := moves }

/-- The image of vector C15. -/
def imageC15 : Image :=
  { Image.zero with
    uart := 3#3, airRate := 2#3, subPacket := 2#2, ambNoiseEn := 1#1, reg1Rsv := 1#3, txPower := 1#2,
    rssiByteEn := 1#1, txMode := 1#1, reg3Rsv3 := 1#1, worTiming := 3#3, addh := 0x12#8, addl := 0x34#8,
    channel := 0x17#8 }

/-! ### WellFormed, and the words of R123 written out bit by bit -/

theorem test_send_too_long_is_ill_formed : ¬ (Instr.send 65#16).WellFormed 64 := by decide
theorem test_receive_too_long_is_ill_formed : ¬ (Instr.receive 65#16).WellFormed 64 := by decide
theorem test_send_at_the_limit_is_well_formed : (Instr.send 64#16).WellFormed 64 := by decide

/-- OP 0000 0001, SEL[1:0] = mc = 11. -/
theorem test_decode_setMode : decode 64 0b00000001000000110000000000000000#32 = .ok (.setMode 3#2) := by decide
/-- OP 0000 0010, SEL[3:0] = fid 1100 (WOR_TIMING), DATA = 0x000B. -/
theorem test_decode_setField :
    decode 64 0b00000010000011000000000000001011#32 = .ok (.setField .worTiming 0x000B#16) := by decide
/-- OP 0000 0011, SEL[3:0] = fid 0101 (REG1_RSV). -/
theorem test_decode_getField : decode 64 0b00000011000001010000000000000000#32 = .ok (.getField .reg1Rsv) := by decide
/-- OP 0000 0100, SEL[2:0] = rid 101 (REG3), DATA[7:0] = 0xCB. -/
theorem test_decode_loadReg :
    decode 64 0b00000100000001010000000011001011#32 = .ok (.loadReg .reg3 0xCB#8) := by decide
/-- OP 0000 0101, DATA[8:0] = 511. -/
theorem test_decode_noiseDbm : decode 64 0b00000101000000000000000111111111#32 = .ok (.noiseDbm 511#9) := by decide
/-- OP 0001 0000. -/
theorem test_decode_readParams : decode 64 0b00010000000000000000000000000000#32 = .ok .readParams := by decide
/-- OP 0001 0001, SEL[0] = 1. -/
theorem test_decode_saveParams :
    decode 64 0b00010001000000010000000000000000#32 = .ok (.saveParams .temporary) := by decide
/-- OP 0001 0010, DATA = 0xABCD. -/
theorem test_decode_setCryptKey :
    decode 64 0b00010010000000001010101111001101#32 = .ok (.setCryptKey 0xABCD#16) := by decide
/-- OP 0001 0011, DATA = 64, the largest size where PAYLOAD_MAX = 64. -/
theorem test_decode_send : decode 64 0b00010011000000000000000001000000#32 = .ok (.send 64#16) := by decide
/-- OP 0001 0100, DATA = 4. -/
theorem test_decode_receive : decode 64 0b00010100000000000000000000000100#32 = .ok (.receive 4#16) := by decide
/-- OP 0001 0101. -/
theorem test_decode_queryRssi : decode 64 0b00010101000000000000000000000000#32 = .ok .queryRssi := by decide

/-- X1, X7 and R128: no row. -/
theorem test_illegal_opcode :
    decode 64 0x00000000#32 = .error .unassignedOpcode ∧ decode 64 0x06000000#32 = .error .unassignedOpcode ∧
      decode 64 0x16000000#32 = .error .unassignedOpcode := by decide
/-- X2, X3, X5, X6. -/
theorem test_illegal_mbz :
    decode 64 0x01040000#32 = .error .mustBeZero ∧ decode 64 0x03100000#32 = .error .mustBeZero ∧
      decode 64 0x05000200#32 = .error .mustBeZero ∧ decode 64 0x10000001#32 = .error .mustBeZero := by decide
/-- X4, TX4. -/
theorem test_illegal_value :
    decode 64 0x04060000#32 = .error .valueConstraint ∧ decode 64 0x13000041#32 = .error .valueConstraint := by
  decide
/-- The examples of R148, and R147's pseudo-instructions. -/
theorem test_encode :
    encode (.setField .uart 4#16) = 0x02000004#32 ∧ encode (.loadReg .reg1 0xA5#8) = 0x040300A5#32 ∧
      encode (.setCryptKey 0xABCD#16) = 0x1200ABCD#32 ∧ encode pseudoDeepSleep = 0x01030000#32 ∧
      encode pseudoSavePerm = 0x11000000#32 ∧ encode pseudoSaveTemp = 0x11010000#32 := by decide
/-- The host's question on the rows of the opcode table. -/
theorem test_table_word : decodeTableWord 32 0x14000000 = some (.receive 0#16) := by decide

/-! ### Commands -/

/-- S4: mode code 1 drives M0 = 1 and M1 = 0. -/
theorem test_setMode_pins :
    look (fun t => (t.m1, t.m0)) (exec (.setMode 1#2) { running 0x01010000#32 .sm2 with smt := 1#2 }) =
      some (0#1, 1#1) := by decide
/-- M3: SM6 pops AA and stays. -/
theorem test_setMode_drain :
    look (fun t => (t.rxq, t.upc)) (exec (.setMode 2#2) { running 0x01020000#32 .sm6 with
      rxq := [0xAA#8, 0xBB#8, 0xCC#8] }) = some ([0xBB#8, 0xCC#8], .sm6) := by decide
/-- C7 (REG0 = 0x62 before). -/
theorem test_setField_uart :
    look (fun t => t.img.pack0) (exec (.setField .uart 7#16) { running 0x02000007#32 .sf1 with img := imageC15 }) =
      some 0xE2#8 := by decide
/-- C9: truncated to one bit. -/
theorem test_setField_truncates :
    look (fun t => t.img.ambNoiseEn)
      (exec (.setField .ambNoiseEn 2#16) { running 0x02040002#32 .sf1 with img := imageC15 }) = some 0#1 := by decide
/-- C12. -/
theorem test_getField_reg1Rsv :
    look (fun t => t.result) (exec (.getField .reg1Rsv) { running 0x03050000#32 .gf1 with img := imageC15 }) =
      some 0x00000001#32 := by decide
/-- C14. -/
theorem test_getField_channel :
    look (fun t => t.result) (exec (.getField .channel) { running 0x030F0000#32 .gf1 with img := imageC15 }) =
      some 0x00000017#32 := by decide
/-- C3. -/
theorem test_loadReg_reg3 :
    look (fun t => (t.img.rssiByteEn, t.img.txMode, t.img.reg3Rsv5, t.img.lbtEn, t.img.reg3Rsv3, t.img.worTiming))
      (exec (.loadReg .reg3 0xCB#8) (running 0x040500CB#32 .lr1)) =
        some (1#1, 1#1, 0#1, 0#1, 1#1, 3#3) := by decide
/-- C6: AMB_NOISE_EN is bit 5, not bit 4. -/
theorem test_loadReg_reg1 :
    look (fun t => (t.img.ambNoiseEn, t.img.reg1Rsv)) (exec (.loadReg .reg1 0x10#8) (running 0x04030010#32 .lr1)) =
      some (0#1, 4#3) := by decide
/-- S1. -/
theorem test_noiseDbm_zero :
    look (fun t => t.result) (exec (.noiseDbm 0#9) (running 0x05000000#32 .nd1)) = some 0xFFFFFF00#32 := by decide
/-- C17. -/
theorem test_noiseDbm_top :
    look (fun t => t.result) (exec (.noiseDbm 511#9) (running 0x050001FF#32 .nd1)) = some 0x000000FF#32 := by decide
/-- RD1: the reply in FRAME, unpacked at RP6. -/
theorem test_readParams_unpacks :
    look (fun t => (t.image0, t.image1)) (exec .readParams { running 0x10000000#32 .rp6 with
      mem := Memory.writeBytes [] 0x040 [0xC1#8, 0x00#8, 0x06#8, 0x12#8, 0x34#8, 0x62#8, 0xA5#8, 0x17#8, 0xCB#8] }) =
        some (0xA5623412#32, 0x1234CB17#32) := by decide
/-- RD4: the short count is tested before the staged echo byte. -/
theorem test_readParams_short :
    look (fun t => t.statusWord) (exec .readParams { running 0x10000000#32 .rp8 with
      mem := Memory.writeBytes [] 0x040 [0xC1#8] }) = some 0x0012#32 := by decide
/-- SV2: the frame of SAVE_PARAMS TEMPORARY. -/
theorem test_saveParams_frame :
    look (fun t => t.mem.bytes 0x040 9)
      (exec (.saveParams .temporary) { running 0x11010000#32 .sp1 with img := imageC15 }) =
        some [0xC2#8, 0x00#8, 0x06#8, 0x12#8, 0x34#8, 0x62#8, 0xA5#8, 0x17#8, 0xCB#8] := by decide
/-- SV3: nine bytes came, but five went out. -/
theorem test_saveParams_short :
    look (fun t => t.statusWord)
      (exec (.saveParams .permanent) { running 0x11000000#32 .sp8 with wcount := 5#16, rcount := 9#16 }) =
        some 0x0012#32 := by decide
/-- S8: the key high byte first. -/
theorem test_setCryptKey_command :
    look (fun t => t.mem.bytes 0x050 5) (exec (.setCryptKey 0xABCD#16) (running 0x1200ABCD#32 .ck1)) =
      some [0xC0#8, 0x06#8, 0x02#8, 0xAB#8, 0xCD#8] := by decide
/-- KY1. -/
theorem test_setCryptKey_success :
    look (fun t => t.statusWord)
      (exec (.setCryptKey 0xABCD#16) { running 0x1200ABCD#32 .ck7 with wcount := 5#16, rcount := 5#16 }) =
        some 0x0006#32 := by decide
/-- TX2. -/
theorem test_send_short :
    look (fun t => t.statusWord) (exec (.send 4#16) { running 0x13000004#32 .ds3 with wcount := 2#16 }) =
      some 0x0012#32 := by decide
/-- TX3: nothing is offered for n = 0. -/
theorem test_send_zero :
    look (fun t => (t.txpend, t.upc)) (exec (.send 0#16) (running 0x13000000#32 .ds1)) = some (false, .ds2) := by decide
/-- RX1: the byte after the payload is the RSSI byte. -/
theorem test_receive_rssi :
    look (fun t => (t.rssiRx, t.rssiValid, t.rxq))
      (exec (.receive 4#16) { running 0x14000004#32 .dr4 with img := imageC15, rxq := [0xC8#8] }) =
        some (0xC8#8, true, []) := by decide
/-- RX3: with RSSI_BYTE_EN = 0 the byte stays in RXQ. -/
theorem test_receive_no_rssi :
    look (fun t => (t.upc, t.rxq)) (exec (.receive 4#16) { running 0x14000004#32 .dr3 with rxq := [0xC8#8] }) =
      some (.dr4, [0xC8#8]) := by decide
/-- Q2: LAST_MODE is UNSET after reset. -/
theorem test_queryRssi_precondition :
    look (fun t => t.statusWord) (exec .queryRssi { running 0x15000000#32 .qr1 with img := imageC15, lastMode := 7#3 }) =
      some 0x7032#32 := by decide
/-- Q4. -/
theorem test_queryRssi_samples :
    look (fun t => (t.samplesWord, t.statusWord)) (exec .queryRssi { running 0x15000000#32 .qr6 with
      img := imageC15, rcount := 5#16
      mem := Memory.writeBytes [] 0x058 [0xC1#8, 0x00#8, 0x02#8, 0xA0#8, 0xB4#8] }) =
        some (0x00B4A000#32, 0x0006#32) := by decide

/-! ### The machine -/

/-- Z1, Z2, Z3. -/
theorem test_reset_registers :
    State.reset.hostRead 0x004#12 = 0x00007000#32 ∧ State.reset.hostRead 0x01C#12 = 0#32 ∧
      State.reset.hostRead 0x008#12 = 0#32 ∧ State.reset.hostRead 0x010#12 = 9600#32 := by decide
/-- C15. -/
theorem test_image_words :
    ({ State.reset with img := imageC15 } : State).hostRead 0x020#12 = 0xA5623412#32 ∧
      ({ State.reset with img := imageC15 } : State).hostRead 0x024#12 = 0x1234CB17#32 := by decide
/-- X1: completed in the same step. -/
theorem test_illegal_status :
    look (fun t => (t.statusWord, t.upc))
      (step { State.reset with agenda := [.access (.write 0x000#12 0x00000000#32)] }) =
        some (0x7042#32, .idle) := by decide
/-- X8: refused; the image is unchanged and SET_MODE goes on. -/
theorem test_busy_refusal :
    look (fun t => (t.overrun, t.cmdlat, t.upc, t.img)) (step { running 0x01030000#32 .sm1 with
      agenda := [.access (.write 0x000#12 0x02000001#32)] }) =
        some (true, 0x01030000#32, .sm1, Image.zero) := by decide
/-- X9. -/
theorem test_overrun_clears :
    look (fun t => t.statusWord) (step { idle [.access (.write 0x004#12 0x00000008#32)] with
      overrun := true, done := true, ok := true, lastMode := 3#3 }) = some 0x3006#32 := by decide
/-- P3, line 1: the lowest byte lane is the first byte. -/
theorem test_payload_write :
    look (fun t => t.mem.bytes 0x100 4) (step (idle [.access (.write 0x100#12 0x44434241#32)])) =
      some [0x41#8, 0x42#8, 0x43#8, 0x44#8] := by decide
/-- Z6: a reset withdraws the pending write. -/
theorem test_reset_abandons :
    look (fun t => (t.upc, t.done, t.txpend, t.txlog)) (step { running 0x11000000#32 .sp4 with
      txpend := true, agenda := [.reset ⟨Image.zero, []⟩] }) = some (.idle, false, false, []) := by decide
/-- M11: the pins show the new mode while LAST_MODE shows the old one. -/
theorem test_pins_before_last_mode :
    look (fun t => (t.pinsWord, t.lastMode)) (step { running 0x01030000#32 .sm2 with
      smt := 3#2, agenda := [.block] }) = some (0x3#32, 0#3) := by decide
/-- The first instruction after reset runs. -/
theorem test_withFetchWord :
    look (fun t => t.result) (step (State.reset.withFetchWord 32 0x05000080)) = some 0xFFFFFF80#32 := by decide

/-- The lines of P1 and P3. -/
theorem test_program_lines :
    hostLines ['R', 'D', ' ', 'I', 'M', 'A', 'G', 'E', '0'] = some [.access (.read 0x020#12)] ∧
      hostLines ['W', 'R', ' ', 'C', 'T', 'R', 'L', ',', ' ', '1'] = some [.access (.write 0x00C#12 1#32)] ∧
      hostLines ['R', 'D', ' ', 'P', 'A', 'Y', 'L', 'O', 'A', 'D', '[', '0', ']'] =
        some [.access (.read 0x100#12)] := by decide
/-- P2, line 1, with EXEC expanded. -/
theorem test_exec_line :
    hostLines "EXEC SET_FIELD CHANNEL, 0x20".toList =
      some [.access (.write 0x000#12 0x020F0020#32), .waitDone] := by decide

/-! ### States that meet the premises of the statements

One theorem per statement with premises, named after it; a statement of several clauses has one conjunct for each. -/

/-- The words of one command of each encoding shape, for the statements about decoding. -/
theorem test_meets_DecodeOfEncode :
    (Instr.send 64#16).WellFormed 64 ∧ (Instr.setField .channel 0xFFFF#16).WellFormed 0 := by decide
theorem test_meets_EncodeOfDecode : decode 1 0x14000001#32 = .ok (.receive 1#16) := by decide
theorem test_meets_LegalOnExactlyOneRow :
    decode 64 0x040500FF#32 = .ok (.loadReg .reg3 0xFF#8) ∧
      ∃ row ∈ opTable, row.matches 64 0x040500FF#32 = true := by decide
theorem test_meets_OperandsOfALegalWord :
    decode 64 0x01030000#32 = .ok (.setMode 3#2) ∧ decode 64 0x020FFFFF#32 = .ok (.setField .channel 0xFFFF#16) ∧
      decode 64 0x03000000#32 = .ok (.getField .uart) ∧ decode 64 0x040500FF#32 = .ok (.loadReg .reg3 0xFF#8) ∧
      decode 64 0x050001FF#32 = .ok (.noiseDbm 511#9) ∧ decode 64 0x11010000#32 = .ok (.saveParams .temporary) ∧
      decode 64 0x1200FFFF#32 = .ok (.setCryptKey 0xFFFF#16) ∧ decode 64 0x13000040#32 = .ok (.send 64#16) ∧
      decode 64 0x14000000#32 = .ok (.receive 0#16) ∧ decode 64 0x10000000#32 = .ok .readParams ∧
      decode 64 0x15000000#32 = .ok .queryRssi := by decide

theorem test_meets_StepRunsDecodedInstruction :
    ({ running 0x050001FF#32 .nd1 with agenda := [.block] } : State).agenda = .block :: [] ∧
      decode 64 0x050001FF#32 = .ok (.noiseDbm 511#9) ∧ (running 0x050001FF#32 .nd1).blockEnabled = true ∧
      (running 0x050001FF#32 .nd1).upc ≠ .idle ∧ (idle [.block]).upc = .idle := by decide

theorem test_meets_EnvironmentMoves :
    ({ State.reset with agenda := [.takeBaud], baudlog := [9600#32] } : State).baudTaken < 1 ∧
      (idle [.takeBaud]).baudlog.length ≤ (idle [.takeBaud]).baudTaken := by decide

/-- TMR counts at SM1 and, with F.RSSI_BYTE_EN = 1, at DR3; not at DR3 otherwise, nor at DS1, nor idle; it saturates. -/
theorem test_meets_TickCountsInTimedSteps :
    look (fun t => t.tmr) (step { running 0x01000000#32 .sm1 with agenda := [.tick] }) = some 1#32 ∧
      look (fun t => t.tmr) (step { running 0x14000000#32 .dr3 with agenda := [.tick], img := imageC15 }) =
        some 1#32 ∧
      look (fun t => t.tmr) (step { running 0x14000000#32 .dr3 with agenda := [.tick] }) = some 0#32 ∧
      look (fun t => t.tmr) (step { running 0x13000001#32 .ds1 with agenda := [.tick] }) = some 0#32 ∧
      look (fun t => t.tmr) (step (idle [.tick])) = some 0#32 ∧
      look (fun t => t.tmr) (step { running 0x01000000#32 .sm1 with
        agenda := [.tick], tmr := 0xFFFFFFFF#32 }) = some 0xFFFFFFFF#32 := by decide

theorem test_meets_AcceptanceEffect :
    (idle [.access (.write 0x003#12 0x01010000#32)]).busy = false ∧ 0x003#12 &&& 0xFFC#12 = 0x000#12 ∧
      decode (idle []).par.payloadMax 0x01010000#32 = .ok (.setMode 1#2) := by decide

theorem test_meets_IllegalWordCompletes :
    (idle [.access (.write 0x000#12 0x13000041#32)]).busy = false ∧ 0x000#12 &&& 0xFFC#12 = 0x000#12 ∧
      decode (idle []).par.payloadMax 0x13000041#32 = .error .valueConstraint := by decide

/-- The four refused targets, PAYLOAD at its first and its last word; and an OVERRUN that a step meets. -/
theorem test_meets_BusyRefusal :
    (running 0x01000000#32 .sm1).busy = true ∧ (0x000#12 &&& 0xFFC#12).toNat = 0x000 ∧
      (0x00F#12 &&& 0xFFC#12).toNat = 0x00C ∧ (0x010#12 &&& 0xFFC#12).toNat = 0x010 ∧
      (0x100#12 &&& 0xFFC#12).toNat = 0x100 ∧
      ((0x13F#12 &&& 0xFFC#12).toNat = 0x13C ∧ 0x13C < 0x100 + 4 * ((64 + 3) / 4)) ∧
      ((running 0x01000000#32 .sm1).access (.write 0x13F#12 0#32)).overrun = true ∧
      0x007#12 &&& 0xFFC#12 = 0x004#12 ∧ (0x00000008#32).getLsbD 3 = true ∧
      look (fun t => t.overrun) (step { idle [.tick] with overrun := true }) = some true ∧
      look (fun t => t.overrun) (step { idle [] with
        overrun := true, prog := [.access (.write 0x004#12 0x00000008#32)] }) = some false := by decide

theorem test_meets_HostAccessIsOneStep :
    (idle [.access (.read 0x004#12)]).agenda = .access (.read 0x004#12) :: [] ∧
      ({ idle [.prog] with prog := [.waitDone, .access (.read 0x004#12)] } : State).prog =
        .waitDone :: [.access (.read 0x004#12)] ∧
      look (fun t => t.prog) (step { running 0x01000000#32 .sm1 with agenda := [.prog], prog := [.waitDone] }) =
        some [.waitDone] ∧
      look (fun t => t.prog) (step { idle [.prog] with prog := [.waitDone] }) = some [] := by decide

/-- Unmapped words beside the registers, the windows and the payload's end; a read-only register. -/
theorem test_meets_AccessesThatHitNothing :
    State.reset.hostRead 0x028#12 = 0#32 ∧ State.reset.hostRead 0x04C#12 = 0#32 ∧
      State.reset.hostRead 0x0FC#12 = 0#32 ∧ ¬ (0x140 < 0x100 + 4 * ((64 + 3) / 4)) ∧
      State.reset.hostRead 0x140#12 = 0#32 ∧ State.reset.hostWrite 0x008#12 1#32 = State.reset ∧
      State.reset.hostWrite 0x140#12 1#32 = State.reset := by decide

/-- The first and last bytes of the windows, and the first lane past a buffer's end. -/
theorem test_meets_BufferWindowsRead :
    8 < 4 * ((9 + 3) / 4) ∧ ¬ (9 < 9) ∧ 11 < 4 * ((9 + 3) / 4) ∧ 63 < 4 * ((State.reset.par.payloadMax + 3) / 4) ∧
      State.reset.par.payloadMax ≤ 3840 ∧
      ({ State.reset with mem := [(0x048, 0x7F#8)] } : State).hostRead 0x048#12 = 0x0000007F#32 := by decide

/-- The last word of a payload of 64 bytes, and of one of 6, whose upper two lanes are no payload bytes. -/
theorem test_meets_PayloadWordWrite :
    State.reset.mem.Wf ∧ State.reset.busy = false ∧ State.reset.par.payloadMax ≤ 3840 ∧
      4 * 15 < 4 * ((State.reset.par.payloadMax + 3) / 4) ∧
      (({ State.reset with par := { Config.vectorParams with payloadMax := 6 } } : State).hostWrite 0x104#12
        0xFFFFFFFF#32).mem = [(0x104, 0xFF#8), (0x105, 0xFF#8)] := by decide

theorem test_meets_ControlRegisterWrites : State.reset.busy = false := by decide

theorem test_meets_ResetStep :
    ({ running 0x13000004#32 .ds1 with agenda := [.reset ⟨imageC15, [(0x048, 1#8), (0x140, 2#8)]⟩] } : State).agenda =
        .reset ⟨imageC15, [(0x048, 1#8), (0x140, 2#8)]⟩ :: [] ∧
      isBufferByte 64 0x048 = true ∧ isBufferByte 64 0x140 = false ∧
      look (fun t => t.mem) (step { running 0x13000004#32 .ds1 with
        agenda := [.reset ⟨imageC15, [(0x048, 1#8), (0x140, 2#8)]⟩] }) = some [(0x048, 1#8)] := by decide

theorem test_meets_ResetAbandonsACommand :
    ({ running 0x13000004#32 .ds1 with txpend := true, agenda := [.reset ⟨Image.zero, []⟩] } : State).agenda =
      .reset ⟨Image.zero, []⟩ :: [] := by decide

/-- Idle in mode NORMAL is a good state, whatever moves are to come. -/
theorem test_idle_is_good (moves : List Move) : (idle moves).Inv ∧ (idle moves).WireInv := by
  refine ⟨?_, fun h => by simp [State.staged, idle, State.reset] at h⟩
  refine ⟨⟨rfl, rfl⟩, ?_, ?_, ?_, ?_, ?_⟩
  · simp [State.FlagInv, idle, State.reset]
  · simp [State.LastModeLegal, idle]
  · simp [State.ModeInv, State.modeCode, Label.afterPins, Label.inProgram, Label.afterSession, Label.queryPassed,
      idle, State.reset]
  · simp [State.TransferInv, State.primAt, idle, State.reset]
  · simp [State.MemInv, Memory.Wf, Memory.unlisted, isBufferByte_iff, idle, State.reset, Config.vectorParams]

/-- SET_MODE PROGRAM draining one byte at SM6. -/
def draining : State :=
  { running 0x01030000#32 .sm6 with m0 := 1#1, m1 := 1#1, smt := 3#2, rxq := [7#8], agenda := [.block] }

theorem test_draining_is_good : draining.Inv := by
  refine ⟨⟨rfl, .setMode 3#2, by decide, .inl ⟨3#2, rfl, rfl, rfl⟩⟩, ?_, ?_, ?_, ?_, ?_⟩
  · simp [State.FlagInv, draining, running, State.reset]
  · simp [State.LastModeLegal, draining, running]
  · simp [State.ModeInv, State.modeCode, Label.afterPins, Label.inProgram, Label.afterSession, Label.queryPassed,
      draining, running, State.reset]
  · simp [State.TransferInv, State.primAt, draining, running, State.reset]
  · simp [State.MemInv, Memory.Wf, Memory.unlisted, isBufferByte_iff, draining, running, State.reset, Config.vectorParams]

/-- SEND 1 with its one byte offered, and the environment's answer next. -/
def offering : State :=
  { running 0x13000001#32 .ds1 with txpend := true, mem := [(0x100, 0x41#8)], agenda := [.txAnswer 1#16] }

theorem test_offering_is_good : offering.Inv ∧ offering.WireInv := by
  refine ⟨?_, fun h => by simp [State.staged, offering, running] at h⟩
  refine ⟨⟨rfl, .send 1#16, by decide, rfl, rfl⟩, ?_, ?_, ?_, ?_, ?_⟩
  · simp [State.FlagInv, offering, running, State.reset]
  · simp [State.LastModeLegal, offering, running]
  · simp [State.ModeInv, State.modeCode, Label.afterPins, Label.inProgram, Label.afterSession, Label.queryPassed,
      offering, running, State.reset]
  · simp [State.TransferInv, State.primAt, Word.data, offering, running, State.reset]
  · simp [State.MemInv, Memory.Wf, Memory.unlisted, isBufferByte_iff, offering, running, State.reset, Config.vectorParams]

/-- SET_CRYPT_KEY about to judge its counts, in mode NORMAL again. -/
def judging : State :=
  { running 0x1200ABCD#32 .ck7 with wcount := 5#16, rcount := 4#16, agenda := [.block] }

theorem test_judging_is_good : judging.Inv := by
  refine ⟨⟨rfl, .setCryptKey 0xABCD#16, by decide, rfl, rfl⟩, ?_, ?_, ?_, ?_, ?_⟩
  · simp [State.FlagInv, judging, running, State.reset]
  · simp [State.LastModeLegal, judging, running]
  · simp [State.ModeInv, State.modeCode, Label.afterPins, Label.inProgram, Label.afterSession, Label.queryPassed,
      judging, running, State.reset]
  · simp [State.TransferInv, State.primAt, judging, running, State.reset]
  · simp [State.MemInv, Memory.Wf, Memory.unlisted, isBufferByte_iff, judging, running, State.reset, Config.vectorParams]

theorem test_meets_EveryStepKeepsInvariant : draining.Inv ∧ ∃ t, step draining = .next t :=
  ⟨test_draining_is_good, _, rfl⟩

theorem test_meets_EveryStepKeepsStagedBytes :
    (idle [.block]).Inv ∧ (idle [.block]).WireInv ∧ ∃ t, step (idle [.block]) = .next t :=
  ⟨(test_idle_is_good _).1, (test_idle_is_good _).2, _, rfl⟩

theorem test_meets_EveryStepKeepsMemoryForm : offering.mem.Wf ∧ ∃ t, step offering = .next t :=
  ⟨by decide, _, rfl⟩

theorem test_meets_LogsOnlyGrow : look (fun t => t.txlog) (step offering) = some [(0x41#8, 0#2)] := by decide

/-- The pins change at SM2, LAST_MODE at SM8; a good state inside SET_MODE and one outside it. -/
theorem test_meets_ModePinInvariants :
    look (fun t => t.m0) (step { running 0x01010000#32 .sm2 with smt := 1#2, agenda := [.block] }) = some 1#1 ∧
      look (fun t => t.lastMode) (step { running 0x01010000#32 .sm8 with smt := 1#2, agenda := [.block] }) =
        some 1#3 ∧
      draining.Inv ∧ (idle [.tick]).Inv :=
  ⟨by decide, by decide, test_draining_is_good, (test_idle_is_good _).1⟩

/-- A block step, host writes of the three targets (PAYLOAD at its last word, the CTRL write by the program under the
default schedule), and an answer. -/
theorem test_meets_OnlyTheNamedWriters :
    look (fun t => (t.img.uart, t.result)) (step { running 0x02000007#32 .sf1 with agenda := [.block] }) =
        some (7#3, 0#32) ∧
      look (fun t => t.curBaud) (step (idle [.access (.write 0x010#12 1200#32)])) = some 1200#32 ∧
      look (fun t => t.autobaudEn) (step { idle [] with prog := [.access (.write 0x00C#12 1#32)] }) = some true ∧
      look (fun t => t.mem) (step { idle [.prog] with prog := [.access (.write 0x13C#12 5#32)] }) =
        some [(0x13C, 5#8)] ∧
      look (fun t => t.txlog) (step offering) = some [(0x41#8, 0#2)] := by decide

theorem test_meets_MemoryFrameOfCommands :
    (running 0x1200ABCD#32 .ck1).mem.Wf ∧
      look (fun t => t.upc) (exec (.setCryptKey 0xABCD#16) (running 0x1200ABCD#32 .ck1)) = some .ck2 := by decide

/-- A command whose TxWrite is pending in a mode, its frame staged; two bytes will be accepted. F.AMB_NOISE_EN = 1. -/
def sending (w : Word) (l : Label) (mc : BitVec 2) (mem : Memory) : State :=
  { running w l with
    txpend := true, m0 := mc.extractLsb' 0 1, m1 := mc.extractLsb' 1 1, lastMode := mc.setWidth 3, mem := mem
    img := { Image.zero with ambNoiseEn := 1#1 }, agenda := [.txAnswer 2#16] }

/-- READ_PARAMS sending its request. -/
def sendingRead : State := sending 0x10000000#32 .rp3 3#2 [(0x040, 0xC1#8), (0x042, 0x06#8)]

/-- SAVE_PARAMS TEMPORARY sending its frame. -/
def sendingSave : State := sending 0x11010000#32 .sp4 3#2 [(0x040, 0xC2#8), (0x042, 0x06#8), (0x046, 0x20#8)]

/-- SET_CRYPT_KEY sending its command. -/
def sendingKey : State :=
  sending 0x1200ABCD#32 .ck4 3#2 [(0x050, 0xC0#8), (0x051, 0x06#8), (0x052, 0x02#8), (0x053, 0xAB#8), (0x054, 0xCD#8)]

/-- QUERY_RSSI sending its command. -/
def sendingQuery : State :=
  sending 0x15000000#32 .qr3 0#2
    [(0x050, 0xC0#8), (0x051, 0xC1#8), (0x052, 0xC2#8), (0x053, 0xC3#8), (0x055, 0x02#8)]

theorem test_sendingRead_is_good : sendingRead.Inv ∧ sendingRead.WireInv := by
  constructor
  · refine ⟨⟨rfl, Instr.readParams, by decide, rfl, rfl⟩, ?_, ?_, ?_, ?_, ?_⟩
    · simp [State.FlagInv, sendingRead, sending, running, State.reset]
    · simp [State.LastModeLegal, sendingRead, sending]
    · simp [State.ModeInv, State.modeCode, Label.afterPins, Label.inProgram, Label.afterSession, Label.queryPassed,
        sendingRead, sending, running, State.reset]
    · simp [State.TransferInv, State.primAt, sendingRead, sending, running, State.reset]
    · simp [State.MemInv, Memory.Wf, Memory.unlisted, isBufferByte_iff, sendingRead, sending, running, State.reset,
        Config.vectorParams]
  · intro _ i hd
    cases hd.symm.trans (show _ = Except.ok Instr.readParams by decide)
    decide

theorem test_sendingSave_is_good : sendingSave.Inv ∧ sendingSave.WireInv := by
  constructor
  · refine ⟨⟨rfl, (Instr.saveParams .temporary), by decide, rfl, rfl⟩, ?_, ?_, ?_, ?_, ?_⟩
    · simp [State.FlagInv, sendingSave, sending, running, State.reset]
    · simp [State.LastModeLegal, sendingSave, sending]
    · simp [State.ModeInv, State.modeCode, Label.afterPins, Label.inProgram, Label.afterSession, Label.queryPassed,
        sendingSave, sending, running, State.reset]
    · simp [State.TransferInv, State.primAt, sendingSave, sending, running, State.reset]
    · simp [State.MemInv, Memory.Wf, Memory.unlisted, isBufferByte_iff, sendingSave, sending, running, State.reset,
        Config.vectorParams]
  · intro _ i hd
    cases hd.symm.trans (show _ = Except.ok (Instr.saveParams .temporary) by decide)
    decide

theorem test_sendingKey_is_good : sendingKey.Inv ∧ sendingKey.WireInv := by
  constructor
  · refine ⟨⟨rfl, (Instr.setCryptKey 0xABCD#16), by decide, rfl, rfl⟩, ?_, ?_, ?_, ?_, ?_⟩
    · simp [State.FlagInv, sendingKey, sending, running, State.reset]
    · simp [State.LastModeLegal, sendingKey, sending]
    · simp [State.ModeInv, State.modeCode, Label.afterPins, Label.inProgram, Label.afterSession, Label.queryPassed,
        sendingKey, sending, running, State.reset]
    · simp [State.TransferInv, State.primAt, sendingKey, sending, running, State.reset]
    · simp [State.MemInv, Memory.Wf, Memory.unlisted, isBufferByte_iff, sendingKey, sending, running, State.reset,
        Config.vectorParams]
  · intro _ i hd
    cases hd.symm.trans (show _ = Except.ok (Instr.setCryptKey 0xABCD#16) by decide)
    decide

theorem test_sendingQuery_is_good : sendingQuery.Inv ∧ sendingQuery.WireInv := by
  constructor
  · refine ⟨⟨rfl, Instr.queryRssi, by decide, rfl, rfl⟩, ?_, ?_, ?_, ?_, ?_⟩
    · simp [State.FlagInv, sendingQuery, sending, running, State.reset]
    · simp [State.LastModeLegal, sendingQuery, sending]
    · simp [State.ModeInv, State.modeCode, Label.afterPins, Label.inProgram, Label.afterSession, Label.queryPassed,
        sendingQuery, sending, running, State.reset]
    · simp [State.TransferInv, State.primAt, sendingQuery, sending, running, State.reset]
    · simp [State.MemInv, Memory.Wf, Memory.unlisted, isBufferByte_iff, sendingQuery, sending, running, State.reset,
        Config.vectorParams]
  · intro _ i hd
    cases hd.symm.trans (show _ = Except.ok Instr.queryRssi by decide)
    decide

/-- Each command that sends: the two bytes accepted, with mode code 3 for the configuration commands and 0 for
QUERY_RSSI (SEND's stand with whatever code the pins show). -/
theorem test_meets_SentBytesAreTheWireFrame :
    (offering.Inv ∧ offering.WireInv ∧ look (fun t => t.txlog) (step offering) = some [(0x41#8, 0#2)]) ∧
      (sendingRead.Inv ∧ sendingRead.WireInv ∧
        look (fun t => t.txlog) (step sendingRead) = some [(0xC1#8, 3#2), (0x00#8, 3#2)]) ∧
      (sendingSave.Inv ∧ sendingSave.WireInv ∧
        look (fun t => t.txlog) (step sendingSave) = some [(0xC2#8, 3#2), (0x00#8, 3#2)]) ∧
      (sendingKey.Inv ∧ sendingKey.WireInv ∧
        look (fun t => t.txlog) (step sendingKey) = some [(0xC0#8, 3#2), (0x06#8, 3#2)]) ∧
      (sendingQuery.Inv ∧ sendingQuery.WireInv ∧
        look (fun t => t.txlog) (step sendingQuery) = some [(0xC0#8, 0#2), (0xC1#8, 0#2)]) :=
  ⟨⟨test_offering_is_good.1, test_offering_is_good.2, by decide⟩,
    ⟨test_sendingRead_is_good.1, test_sendingRead_is_good.2, by decide⟩,
    ⟨test_sendingSave_is_good.1, test_sendingSave_is_good.2, by decide⟩,
    ⟨test_sendingKey_is_good.1, test_sendingKey_is_good.2, by decide⟩,
    ⟨test_sendingQuery_is_good.1, test_sendingQuery_is_good.2, by decide⟩⟩

theorem test_meets_ConfigCommandsEndInNormal :
    judging.Inv ∧ judging.busy = true ∧ look (fun t => (t.busy, t.err)) (step judging) = some (false, 1#4) ∧
      decode judging.par.payloadMax judging.cmdlat = .ok (.setCryptKey 0xABCD#16) :=
  ⟨test_judging_is_good, by decide⟩

theorem test_meets_OneOutcomePerCommand :
    judging.Inv ∧ judging.busy = true ∧ look (fun t => (t.busy, t.err)) (step judging) = some (false, 1#4) :=
  ⟨test_judging_is_good, by decide⟩

/-- A step that holds (SEND waiting for its answer) and one that is enabled. -/
theorem test_meets_BlockHoldsExactlyWhenNotEnabled :
    offering.Inv ∧ offering.blockEnabled = false ∧ draining.Inv ∧ draining.blockEnabled = true :=
  ⟨test_offering_is_good.1, by decide, test_draining_is_good, by decide⟩

theorem test_meets_AbsentAuxIsNeverSampled :
    draining.par.hasAux = false ∧ ∃ t, step draining = .next t := ⟨rfl, _, rfl⟩

theorem test_meets_EveryCommandCompletes :
    ({ draining with agenda := [] } : State).Inv ∧ draining.par.Reachable ∧ draining.busy = true := by
  refine ⟨?_, by decide, rfl⟩
  obtain ⟨h1, h2, h3, h4, h5, h6⟩ := test_draining_is_good
  exact ⟨h1, h2, h3, h4, h5, h6⟩

theorem test_meets_SetFieldEffect : (running 0x02000007#32 .sf1).upc = .sf1 := rfl
theorem test_meets_GetFieldEffect : (running 0x03000000#32 .gf1).upc = .gf1 := rfl
theorem test_meets_LoadRegEffect : (running 0x04000000#32 .lr1).upc = .lr1 := rfl
theorem test_meets_NoiseDbmEffect : (running 0x05000000#32 .nd1).upc = .nd1 := rfl

/-- SM3 and SM4 on both sides of R184, SM6 at and below T_DRAIN_CAP, SM8 at top level and called. -/
theorem test_meets_SetModeSteps :
    look (fun t => t.baudlog) (exec (.setMode 3#2) { running 0x01030000#32 .sm3 with
        smt := 3#2, autobaudEn := true, img := { Image.zero with uart := 7#3 } }) = some [9600#32] ∧
      look (fun t => t.baudlog) (exec (.setMode 3#2) { running 0x01030000#32 .sm3 with
        smt := 3#2, autobaudEn := true, img := { Image.zero with uart := 3#3 } }) = some [] ∧
      look (fun t => t.curBaud) (exec (.setMode 0#2) { running 0x01000000#32 .sm4 with
        autobaudEn := true, img := { Image.zero with uart := 7#3 } }) = some 115200#32 ∧
      look (fun t => (t.drainTo, t.rxq)) (exec (.setMode 0#2) { running 0x01000000#32 .sm6 with
        tmr := 5000#32, rxq := [1#8] }) = some (true, [1#8]) ∧
      look (fun t => (t.drainTo, t.rxq)) (exec (.setMode 0#2) { running 0x01000000#32 .sm6 with
        tmr := 4999#32, rxq := [1#8] }) = some (false, []) ∧
      look (fun t => (t.upc, t.done)) (exec (.setMode 0#2) (running 0x01000000#32 .sm8)) = some (.idle, true) ∧
      look (fun t => (t.upc, t.ret)) (exec .readParams { running 0x10000000#32 .sm8 with
        ret := some .rp3, smt := 3#2 }) = some (.rp3, none) := by decide

theorem test_meets_CalledSetModeIsTheSame :
    (running 0x10000000#32 .sm1).upc ∈ [Label.sm1, .sm2, .sm3, .sm4, .sm5, .sm6, .sm7, .sm8] ∧
      Instr.readParams ∈ [Instr.readParams, .saveParams .permanent, .saveParams .temporary] := by decide

/-- TxWrite: nothing to send, an offer, a wait and an answer; with the whole count and with one too many. -/
theorem test_meets_TxWriteAnswer :
    offering.agenda = .txAnswer 1#16 :: [] ∧ offering.upc = .ds1 ∧ offering.txpend = true ∧
      offering.cmdlat.toNat % 2 ^ 16 = 1 ∧
      look (fun t => (t.txpend, t.txlog)) (step { offering with agenda := [.txAnswer 2#16] }) = some (true, []) ∧
      look (fun t => t.txlog) (step { offering with txpend := false }) = some [] := by decide

/-- Every step of READ_PARAMS, the waiting ones on both sides of their bounds, and the three outcomes of RP8. -/
theorem test_meets_ReadParamsSteps :
    look (fun t => (t.mem.read 0x040, t.upc)) (exec .readParams (running 0x10000000#32 .rp1)) = some (0xC1#8, .rp2) ∧
      look (fun t => (t.ret, t.smt, t.upc)) (exec .readParams (running 0x10000000#32 .rp2)) = some (some .rp3, 3#2, .sm1) ∧
      look (fun t => t.txpend) (exec .readParams (running 0x10000000#32 .rp3)) = some true ∧
      look (fun t => t.upc) (exec .readParams { running 0x10000000#32 .rp3 with txpend := true }) = some .rp3 ∧
      look (fun t => (t.wcount, t.upc)) (exec .readParams { running 0x10000000#32 .rp3 with txAns := some 3#16 }) = some (3#16, .rp4) ∧
      look (fun t => t.upc) (exec .readParams { running 0x10000000#32 .rp4 with tmr := 1 }) = some .rp5 ∧
      look (fun t => t.upc) (exec .readParams (running 0x10000000#32 .rp4)) = some .rp4 ∧
      look (fun t => (t.rcount, t.upc)) (exec .readParams { running 0x10000000#32 .rp5 with got := 9 }) = some (9#16, .rp6) ∧
      look (fun t => (t.mem.read 0x048, t.got, t.upc)) (exec .readParams { running 0x10000000#32 .rp5 with got := 8, tmr := 2, rxq := [7#8] }) = some (7#8, 9#16, .rp5) ∧
      look (fun t => (t.rcount, t.upc)) (exec .readParams { running 0x10000000#32 .rp5 with got := 8, tmr := 2 }) = some (8#16, .rp6) ∧
      look (fun t => t.upc) (exec .readParams { running 0x10000000#32 .rp5 with got := 8, tmr := 1 }) = some .rp5 ∧
      look (fun t => t.img.worTiming) (exec .readParams { running 0x10000000#32 .rp6 with mem := [(0x048, 7#8)] }) = some 7#3 ∧
      look (fun t => (t.ret, t.smt, t.upc)) (exec .readParams (running 0x10000000#32 .rp7)) = some (some .rp8, 0#2, .sm1) ∧
      look (fun t => (t.ok, t.err)) (exec .readParams { running 0x10000000#32 .rp8 with rcount := 8 }) = some (false, 1#4) ∧
      look (fun t => (t.ok, t.err)) (exec .readParams { running 0x10000000#32 .rp8 with rcount := 9 }) = some (false, 2#4) ∧
      look (fun t => (t.ok, t.err)) (exec .readParams { running 0x10000000#32 .rp8 with rcount := 9, mem := [(0x040, 0xC1#8)] }) = some (true, 0#4) := by decide

theorem test_meets_SaveParamsSteps :
    look (fun t => (t.mem.read 0x040, t.upc)) (exec (.saveParams .temporary) (running 0x11010000#32 .sp1)) = some (0xC2#8, .sp2) ∧
      look (fun t => (t.ret, t.smt, t.upc)) (exec (.saveParams .temporary) (running 0x11010000#32 .sp2)) = some (some .sp3, 3#2, .sm1) ∧
      look (fun t => t.upc) (exec (.saveParams .temporary) { running 0x11010000#32 .sp3 with tmr := 1 }) = some .sp4 ∧
      look (fun t => t.upc) (exec (.saveParams .temporary) (running 0x11010000#32 .sp3)) = some .sp3 ∧
      look (fun t => t.txpend) (exec (.saveParams .temporary) (running 0x11010000#32 .sp4)) = some true ∧
      look (fun t => (t.wcount, t.upc)) (exec (.saveParams .temporary) { running 0x11010000#32 .sp4 with txAns := some 9#16 }) = some (9#16, .sp5) ∧
      look (fun t => t.upc) (exec (.saveParams .temporary) { running 0x11010000#32 .sp5 with tmr := 5000 }) = some .sp6 ∧
      look (fun t => t.upc) (exec (.saveParams .temporary) { running 0x11010000#32 .sp5 with tmr := 4999 }) = some .sp5 ∧
      look (fun t => (t.rxq, t.upc)) (exec (.saveParams .temporary) { running 0x11010000#32 .sp5 with rxq := [7#8] }) = some ([7#8], .sp6) ∧
      look (fun t => (t.rcount, t.upc)) (exec (.saveParams .temporary) { running 0x11010000#32 .sp6 with got := 9 }) = some (9#16, .sp7) ∧
      look (fun t => (t.mem.read 0x040, t.upc)) (exec (.saveParams .temporary) { running 0x11010000#32 .sp6 with rxq := [7#8] }) = some (7#8, .sp6) ∧
      look (fun t => (t.ret, t.smt, t.upc)) (exec (.saveParams .temporary) (running 0x11010000#32 .sp7)) = some (some .sp8, 0#2, .sm1) ∧
      look (fun t => (t.ok, t.err)) (exec (.saveParams .temporary) { running 0x11010000#32 .sp8 with wcount := 9, rcount := 9 }) = some (true, 0#4) ∧
      look (fun t => (t.ok, t.err)) (exec (.saveParams .temporary) { running 0x11010000#32 .sp8 with wcount := 8, rcount := 9 }) = some (false, 1#4) ∧
      look (fun t => (t.ok, t.err)) (exec (.saveParams .temporary) { running 0x11010000#32 .sp8 with wcount := 9, rcount := 8 }) = some (false, 1#4) := by decide

theorem test_meets_SetCryptKeySteps :
    look (fun t => (t.mem.read 0x053, t.mem.read 0x054, t.upc)) (exec (.setCryptKey 0xABCD#16) (running 0x1200ABCD#32 .ck1)) = some (0xAB#8, 0xCD#8, .ck2) ∧
      look (fun t => (t.ret, t.smt, t.upc)) (exec (.setCryptKey 0xABCD#16) (running 0x1200ABCD#32 .ck2)) = some (some .ck3, 3#2, .sm1) ∧
      look (fun t => t.upc) (exec (.setCryptKey 0xABCD#16) { running 0x1200ABCD#32 .ck3 with tmr := 1 }) = some .ck4 ∧
      look (fun t => t.upc) (exec (.setCryptKey 0xABCD#16) (running 0x1200ABCD#32 .ck3)) = some .ck3 ∧
      look (fun t => t.txpend) (exec (.setCryptKey 0xABCD#16) (running 0x1200ABCD#32 .ck4)) = some true ∧
      look (fun t => (t.wcount, t.upc)) (exec (.setCryptKey 0xABCD#16) { running 0x1200ABCD#32 .ck4 with txAns := some 5#16 }) = some (5#16, .ck5) ∧
      look (fun t => (t.rcount, t.upc)) (exec (.setCryptKey 0xABCD#16) { running 0x1200ABCD#32 .ck5 with got := 5 }) = some (5#16, .ck6) ∧
      look (fun t => (t.mem.read 0x05C, t.upc)) (exec (.setCryptKey 0xABCD#16) { running 0x1200ABCD#32 .ck5 with got := 4, rxq := [7#8] }) = some (7#8, .ck5) ∧
      look (fun t => (t.ret, t.smt, t.upc)) (exec (.setCryptKey 0xABCD#16) (running 0x1200ABCD#32 .ck6)) = some (some .ck7, 0#2, .sm1) ∧
      look (fun t => (t.ok, t.err)) (exec (.setCryptKey 0xABCD#16) { running 0x1200ABCD#32 .ck7 with wcount := 5, rcount := 5 }) = some (true, 0#4) ∧
      look (fun t => (t.ok, t.err)) (exec (.setCryptKey 0xABCD#16) { running 0x1200ABCD#32 .ck7 with wcount := 4, rcount := 5 }) = some (false, 1#4) ∧
      look (fun t => (t.ok, t.err)) (exec (.setCryptKey 0xABCD#16) { running 0x1200ABCD#32 .ck7 with wcount := 5, rcount := 4 }) = some (false, 1#4) := by decide

/-- SEND, its BusyWait with AUX ready, timed out and waiting, and without AUX. -/
theorem test_meets_SendSteps :
    look (fun t => t.txpend) (exec (.send 1#16) (running 0x13000001#32 .ds1)) = some true ∧
      look (fun t => t.upc) (exec (.send 1#16) { running 0x13000001#32 .ds1 with txpend := true }) = some .ds1 ∧
      look (fun t => (t.wcount, t.upc)) (exec (.send 1#16) { running 0x13000001#32 .ds1 with txAns := some 1#16 }) = some (1#16, .ds2) ∧
      look (fun t => (t.auxTo, t.upc)) (exec (.send 1#16) { running 0x13000001#32 .ds2 with par := { Config.vectorParams with hasAux := true }, aux := 1 }) = some (false, .ds3) ∧
      look (fun t => (t.auxTo, t.upc)) (exec (.send 1#16) { running 0x13000001#32 .ds2 with par := { Config.vectorParams with hasAux := true }, tmr := 4 }) = some (true, .ds3) ∧
      look (fun t => (t.auxTo, t.upc)) (exec (.send 1#16) { running 0x13000001#32 .ds2 with par := { Config.vectorParams with hasAux := true }, tmr := 3 }) = some (false, .ds2) ∧
      look (fun t => (t.auxTo, t.upc)) (exec (.send 1#16) { running 0x13000001#32 .ds2 with tmr := 5 }) = some (false, .ds3) ∧
      look (fun t => t.upc) (exec (.send 1#16) { running 0x13000001#32 .ds2 with tmr := 4 }) = some .ds2 ∧
      look (fun t => (t.ok, t.err)) (exec (.send 1#16) { running 0x13000001#32 .ds3 with wcount := 1 }) = some (true, 0#4) ∧
      look (fun t => (t.ok, t.err)) (exec (.send 1#16) (running 0x13000001#32 .ds3)) = some (false, 1#4) := by decide

theorem test_meets_SendSteps_of_nothing :
    look (fun t => (t.wcount, t.upc)) (exec (.send 0#16) (running 0x13000000#32 .ds1)) = some (0#16, .ds2) := by
  decide

/-- RECEIVE, with F.RSSI_BYTE_EN = 1 and 0 at DR3 and DR4. -/
theorem test_meets_ReceiveSteps :
    look (fun t => (t.rssiValid, t.upc)) (exec (.receive 4#16) { running 0x14000004#32 .dr1 with rssiValid := true }) = some (false, .dr2) ∧
      look (fun t => (t.rcount, t.upc)) (exec (.receive 4#16) { running 0x14000004#32 .dr2 with got := 4 }) = some (4#16, .dr3) ∧
      look (fun t => (t.mem.read 0x103, t.upc)) (exec (.receive 4#16) { running 0x14000004#32 .dr2 with got := 3, rxq := [7#8] }) = some (7#8, .dr2) ∧
      look (fun t => (t.wto, t.upc)) (exec (.receive 4#16) { running 0x14000004#32 .dr3 with img := imageC15, tmr := 5 }) = some (true, .dr4) ∧
      look (fun t => t.upc) (exec (.receive 4#16) { running 0x14000004#32 .dr3 with img := imageC15, tmr := 4 }) = some .dr3 ∧
      look (fun t => (t.wto, t.upc)) (exec (.receive 4#16) { running 0x14000004#32 .dr3 with img := imageC15, rxq := [7#8], wto := true }) = some (false, .dr4) ∧
      look (fun t => (t.wto, t.upc)) (exec (.receive 4#16) { running 0x14000004#32 .dr3 with rxq := [7#8] }) = some (true, .dr4) ∧
      look (fun t => (t.rssiRx, t.rssiValid, t.rxq)) (exec (.receive 4#16) { running 0x14000004#32 .dr4 with img := imageC15, rxq := [7#8, 8#8] }) = some (7#8, true, [8#8]) ∧
      look (fun t => (t.rxq, t.upc)) (exec (.receive 4#16) { running 0x14000004#32 .dr4 with img := imageC15, wto := true, rxq := [7#8] }) = some ([7#8], .dr5) ∧
      look (fun t => (t.rxq, t.upc)) (exec (.receive 4#16) { running 0x14000004#32 .dr4 with rxq := [7#8] }) = some ([7#8], .dr5) ∧
      look (fun t => t.upc) (exec (.receive 4#16) { running 0x14000004#32 .dr5 with tmr := 5 }) = some .dr6 ∧
      look (fun t => (t.ok, t.err)) (exec (.receive 4#16) { running 0x14000004#32 .dr6 with rcount := 4 }) = some (true, 0#4) ∧
      look (fun t => (t.ok, t.err)) (exec (.receive 4#16) { running 0x14000004#32 .dr6 with rcount := 3 }) = some (false, 1#4) := by decide

/-- The one clause of ReceiveSteps that stops. -/
theorem test_meets_ReceiveSteps_stop :
    exec (.receive 4#16) { running 0x14000004#32 .dr4 with img := imageC15 } = .fault .popOfEmptyQueue := rfl

/-- QUERY_RSSI, with each half of its precondition missing and with both there. -/
theorem test_meets_QueryRssiSteps :
    look (fun t => (t.ok, t.err)) (exec .queryRssi (running 0x15000000#32 .qr1)) = some (false, 3#4) ∧
      look (fun t => (t.ok, t.err)) (exec .queryRssi { running 0x15000000#32 .qr1 with img := imageC15, lastMode := 1#3 }) = some (false, 3#4) ∧
      look (fun t => t.upc) (exec .queryRssi { running 0x15000000#32 .qr1 with img := imageC15 }) = some .qr2 ∧
      look (fun t => t.mem.bytes 0x050 6) (exec .queryRssi (running 0x15000000#32 .qr2)) = some [0xC0#8, 0xC1#8, 0xC2#8, 0xC3#8, 0x00#8, 0x02#8] ∧
      look (fun t => t.txpend) (exec .queryRssi (running 0x15000000#32 .qr3)) = some true ∧
      look (fun t => (t.wcount, t.upc)) (exec .queryRssi { running 0x15000000#32 .qr3 with txAns := some 0#16 }) = some (0#16, .qr4) ∧
      look (fun t => t.upc) (exec .queryRssi { running 0x15000000#32 .qr4 with tmr := 1 }) = some .qr5 ∧
      look (fun t => t.upc) (exec .queryRssi (running 0x15000000#32 .qr4)) = some .qr4 ∧
      look (fun t => (t.rcount, t.upc)) (exec .queryRssi { running 0x15000000#32 .qr5 with got := 4, tmr := 2 }) = some (4#16, .qr6) ∧
      look (fun t => (t.ok, t.err, t.noise)) (exec .queryRssi { running 0x15000000#32 .qr6 with rcount := 4, mem := [(0x05B, 0xA0#8)] }) = some (false, 1#4, 0#8) ∧
      look (fun t => (t.ok, t.err, t.noise)) (exec .queryRssi { running 0x15000000#32 .qr6 with rcount := 5, mem := [(0x05B, 0xA0#8)] }) = some (true, 0#4, 0xA0#8) := by decide

/-- A machine in mode NORMAL with a quiet link can run any command. -/
theorem test_idle_can_run (moves : List Move) :
    (idle moves).Inv ∧ (idle moves).busy = false ∧ (idle moves).par.Reachable ∧ (idle moves).Quiet :=
  ⟨(test_idle_is_good moves).1, rfl, show Config.vectorParams.Reachable by decide, rfl, fun h => nomatch h⟩

/-- So can one whose image is that of vector C15. -/
theorem test_idle_can_run_imageC15 (moves : List Move) :
    ({ idle moves with img := imageC15 } : State).Inv ∧ ({ idle moves with img := imageC15 } : State).busy = false ∧
      ({ idle moves with img := imageC15 } : State).par.Reachable ∧
      ({ idle moves with img := imageC15 } : State).Quiet := by
  obtain ⟨h1, h2, h3, -, -, h6⟩ := (test_idle_is_good moves).1
  refine ⟨⟨h1, h2, h3, ?_, ?_, h6⟩, rfl, show Config.vectorParams.Reachable by decide, rfl, fun h => nomatch h⟩
  · simp [State.ModeInv, State.modeCode, Label.afterPins, Label.inProgram, Label.afterSession, Label.queryPassed, idle,
      State.reset]
  · simp [State.TransferInv, State.primAt, idle, State.reset]

theorem test_meets_SetModeRunsToTheEnd :
    ∃ s : State, s.Inv ∧ s.busy = false ∧ s.par.Reachable ∧ s.Quiet ∧
      s.agenda = writeCmd (.setMode 3#2) :: (setModeMoves s.par ++ []) :=
  have h := test_idle_can_run (writeCmd (.setMode 3#2) :: (setModeMoves Config.vectorParams ++ []))
  ⟨_, h.1, h.2.1, h.2.2.1, h.2.2.2, rfl⟩

/-- A reply of nine bytes to a request of which two bytes went out. -/
theorem test_meets_ReadParamsRunsToTheEnd :
    ∃ (s : State) (w : BitVec 16) (reply : List Byte), s.Inv ∧ s.busy = false ∧ s.par.Reachable ∧ s.Quiet ∧
      w.toNat ≤ 3 ∧ reply.length ≤ 9 ∧
      s.agenda = writeCmd .readParams :: ([.block, .block] ++ setModeMoves s.par ++ txMoves w ++
        (ticks s.par.tRdSettle ++ [.block]) ++ rxMoves s.par 9 reply ++ [.block, .block] ++ setModeMoves s.par ++
        [.block] ++ []) :=
  have h := test_idle_can_run (writeCmd .readParams :: ([.block, .block] ++ setModeMoves Config.vectorParams ++
    txMoves 2#16 ++ (ticks 1 ++ [.block]) ++
    rxMoves Config.vectorParams 9 [0xC1#8, 0x00#8, 0x06#8, 0x12#8, 0x34#8, 0x62#8, 0xA5#8, 0x17#8, 0xCB#8] ++
    [.block, .block] ++ setModeMoves Config.vectorParams ++ [.block] ++ []))
  ⟨_, 2#16, [0xC1#8, 0x00#8, 0x06#8, 0x12#8, 0x34#8, 0x62#8, 0xA5#8, 0x17#8, 0xCB#8], h.1, h.2.1, h.2.2.1, h.2.2.2,
    by decide, by decide, rfl⟩

/-- A reply that stops one byte short, so that one staged byte of FRAME stays. -/
theorem test_meets_ReadParamsRunsToTheEnd_short :
    ∃ (s : State) (w : BitVec 16) (reply : List Byte), s.Inv ∧ s.busy = false ∧ s.par.Reachable ∧ s.Quiet ∧
      w.toNat ≤ 3 ∧ reply.length ≤ 9 ∧ (reply.length ≤ 8 ∧ 8 < 9) ∧
      s.agenda = writeCmd .readParams :: ([.block, .block] ++ setModeMoves s.par ++ txMoves w ++
        (ticks s.par.tRdSettle ++ [.block]) ++ rxMoves s.par 9 reply ++ [.block, .block] ++ setModeMoves s.par ++
        [.block] ++ []) :=
  have h := test_idle_can_run (writeCmd .readParams :: ([.block, .block] ++ setModeMoves Config.vectorParams ++
    txMoves 3#16 ++ (ticks 1 ++ [.block]) ++
    rxMoves Config.vectorParams 9 [0xC1#8, 0x00#8, 0x06#8, 0x12#8, 0x34#8, 0x62#8, 0xA5#8, 0x17#8] ++
    [.block, .block] ++ setModeMoves Config.vectorParams ++ [.block] ++ []))
  ⟨_, 3#16, [0xC1#8, 0x00#8, 0x06#8, 0x12#8, 0x34#8, 0x62#8, 0xA5#8, 0x17#8], h.1, h.2.1, h.2.2.1, h.2.2.2,
    by decide, by decide, by decide, rfl⟩

/-- The whole frame goes out and nothing comes back. -/
theorem test_meets_SaveParamsRunsToTheEnd :
    ∃ (s : State) (w : BitVec 16) (reply : List Byte), s.Inv ∧ s.busy = false ∧ s.par.Reachable ∧ s.Quiet ∧
      w.toNat ≤ 9 ∧ reply.length ≤ 9 ∧
      s.agenda = writeCmd (.saveParams .temporary) :: ([.block, .block] ++ setModeMoves s.par ++
        (ticks s.par.tSavePre ++ [.block]) ++ txMoves w ++ saveReplyMoves s.par reply ++ [.block] ++
        setModeMoves s.par ++ [.block] ++ []) :=
  have h := test_idle_can_run (writeCmd (.saveParams .temporary) :: ([.block, .block] ++
    setModeMoves Config.vectorParams ++ (ticks 1 ++ [.block]) ++ txMoves 9#16 ++
    saveReplyMoves Config.vectorParams [] ++ [.block] ++ setModeMoves Config.vectorParams ++ [.block] ++ []))
  ⟨_, 9#16, [], h.1, h.2.1, h.2.2.1, h.2.2.2, by decide, by decide, rfl⟩

theorem test_meets_SetCryptKeyRunsToTheEnd :
    ∃ (s : State) (w : BitVec 16) (reply : List Byte), s.Inv ∧ s.busy = false ∧ s.par.Reachable ∧ s.Quiet ∧
      w.toNat ≤ 5 ∧ reply.length ≤ 5 ∧
      s.agenda = writeCmd (.setCryptKey 0xABCD#16) :: ([.block, .block] ++ setModeMoves s.par ++
        (ticks s.par.tSavePre ++ [.block]) ++ txMoves w ++ rxMoves s.par 5 reply ++ [.block] ++ setModeMoves s.par ++
        [.block] ++ []) :=
  have h := test_idle_can_run (writeCmd (.setCryptKey 0xABCD#16) :: ([.block, .block] ++
    setModeMoves Config.vectorParams ++ (ticks 1 ++ [.block]) ++ txMoves 5#16 ++
    rxMoves Config.vectorParams 5 [1#8, 2#8, 3#8, 4#8] ++ [.block] ++ setModeMoves Config.vectorParams ++ [.block] ++
    []))
  ⟨_, 5#16, [1#8, 2#8, 3#8, 4#8], h.1, h.2.1, h.2.2.1, h.2.2.2, by decide, by decide, rfl⟩

/-- All 64 bytes of a full payload; and none, where no answer is awaited. -/
theorem test_meets_SendRunsToTheEnd :
    (∃ (s : State) (n w : BitVec 16), n = 64#16 ∧ s.Inv ∧ s.busy = false ∧ s.par.Reachable ∧
      (s.par.hasAux = true → s.aux = s.par.auxReadyLevel) ∧
      n.toNat ≤ s.par.payloadMax ∧ w.toNat ≤ n.toNat ∧
      s.agenda = writeCmd (.send n) :: ((if n = 0#16 then [.block] else txMoves w) ++ busyMoves s.par ++ [.block] ++
        [])) ∧
    ∃ (s : State) (n w : BitVec 16), n = 0#16 ∧ s.Inv ∧ s.busy = false ∧ s.par.Reachable ∧
      (s.par.hasAux = true → s.aux = s.par.auxReadyLevel) ∧
      n.toNat ≤ s.par.payloadMax ∧ w.toNat ≤ n.toNat ∧
      s.agenda = writeCmd (.send n) :: ((if n = 0#16 then [.block] else txMoves w) ++ busyMoves s.par ++ [.block] ++
        []) :=
  have h := test_idle_can_run (writeCmd (.send 64#16) :: (txMoves 64#16 ++ busyMoves Config.vectorParams ++ [.block] ++
    []))
  have h' := test_idle_can_run (writeCmd (.send 0#16) :: ([.block] ++ busyMoves Config.vectorParams ++ [.block] ++ []))
  ⟨⟨_, 64#16, 64#16, rfl, h.1, h.2.1, h.2.2.1, h.2.2.2.2, by decide, by decide, rfl⟩,
    ⟨_, 0#16, 0#16, rfl, h'.1, h'.2.1, h'.2.2.1, h'.2.2.2.2, by decide, by decide, rfl⟩⟩

/-- A whole payload with its RSSI byte. -/
theorem test_meets_ReceiveRunsToTheEnd :
    ∃ (s : State) (n : BitVec 16) (reply : List Byte) (rssi : Option Byte), s.Inv ∧ s.busy = false ∧
      s.par.Reachable ∧ s.Quiet ∧ n.toNat ≤ s.par.payloadMax ∧ reply.length ≤ n.toNat ∧
      s.agenda = writeCmd (.receive n) :: ([.block] ++ rxMoves s.par n.toNat reply ++
        rssiMoves s.img.rssiByteEn rssi ++ [.block] ++ busyMoves s.par ++ [.block] ++ []) :=
  have h := test_idle_can_run_imageC15 (writeCmd (.receive 2#16) :: ([.block] ++
    rxMoves Config.vectorParams 2 [1#8, 2#8] ++ rssiMoves 1#1 (some 0xC8#8) ++ [.block] ++
    busyMoves Config.vectorParams ++ [.block] ++ []))
  ⟨_, 2#16, [1#8, 2#8], some 0xC8#8, h.1, h.2.1, h.2.2.1, h.2.2.2, by decide, by decide, rfl⟩

theorem test_meets_QueryRssiRunsToTheEnd :
    ∃ (s : State) (w : BitVec 16) (reply : List Byte), s.Inv ∧ s.busy = false ∧ s.par.Reachable ∧ s.Quiet ∧
      s.img.ambNoiseEn = 1#1 ∧ s.lastMode = 0#3 ∧ w.toNat ≤ 6 ∧ reply.length ≤ 5 ∧
      s.agenda = writeCmd .queryRssi :: ([.block, .block] ++ txMoves w ++ (ticks s.par.tQrssi ++ [.block]) ++
        rxMoves s.par 5 reply ++ [.block] ++ []) :=
  have h := test_idle_can_run_imageC15 (writeCmd .queryRssi :: ([.block, .block] ++ txMoves 6#16 ++
    (ticks 1 ++ [.block]) ++ rxMoves Config.vectorParams 5 [0xC1#8, 0x00#8, 0x02#8, 0xA0#8, 0xB4#8] ++ [.block] ++ []))
  ⟨_, 6#16, [0xC1#8, 0x00#8, 0x02#8, 0xA0#8, 0xB4#8], h.1, h.2.1, h.2.2.1, h.2.2.2, rfl, rfl, by decide, by decide,
    rfl⟩

end Sys2Proof.Tests
end

section
/-! The steps of the agents (00_scope.md R20 to R24): which step the agenda or the default schedule takes, what the
block's step runs, what a tick counts, and the obligations about them. -/

namespace Sys2Proof.Machine

/-- The agenda decides the step (log 1). -/
theorem step_of_agenda_cons {s : State} {m : Move} {rest : List Move} (h : s.agenda = m :: rest) :
    step s = ({ s with agenda := rest } : State).perform m := by
  simp [step, h]

/-- With nothing decided, an enabled block steps first (R21 a, log 1). -/
theorem step_of_blockEnabled {s : State} (h : s.agenda = []) (he : s.blockEnabled = true) :
    step s = s.blockStep := by
  simp [step, h, State.autoStep, he]

theorem State.blockStep_idle {s : State} (h : s.upc = .idle) : s.blockStep = .next s := by
  simp [State.blockStep, h]

theorem State.blockStep_running {s : State} {i : Instr} (hu : s.upc ≠ .idle)
    (hd : decode s.par.payloadMax s.cmdlat = .ok i) : s.blockStep = exec i s := by
  simp [State.blockStep, hu, hd]

theorem State.takeBaud_of_lt {s : State} (h : s.baudTaken < s.baudlog.length) :
    s.takeBaud = { s with baudTaken := s.baudTaken + 1 } :=
  if_pos h

theorem State.takeBaud_of_le {s : State} (h : s.baudlog.length ≤ s.baudTaken) : s.takeBaud = s :=
  if_neg (Nat.not_lt.mpr h)

/-- The steps that run Delay, WaitFor, Drain, BusyWait or RxRead (R102, R186), by name. -/
theorem State.timedAt_iff (s : State) (l : Label) :
    s.timedAt l = true ↔
      l ∈ [.sm1, .sm5, .sm6, .sm7, .rp4, .rp5, .sp3, .sp5, .sp6, .ck3, .ck5, .ds2, .dr2, .dr5, .qr4, .qr5] ∨
        (l = .dr3 ∧ s.img.rssiByteEn = 1#1) := by
  cases l
  case dr3 => by_cases h : s.img.rssiByteEn = 1#1 <;> simp [State.timedAt, State.primAt, Prim.timed, h]
  all_goals simp [State.timedAt, State.primAt, Prim.timed]

/-- The timer's increment, which stops at all ones, is min(v + 1, 2^32 - 1) (R22). -/
theorem toNat_saturatingIncrement (v : BitVec 32) :
    (if v = BitVec.allOnes 32 then v else v + 1#32).toNat = min (v.toNat + 1) (2 ^ 32 - 1) := by
  split
  · next h => subst h; decide
  · next h =>
    have hne : v.toNat ≠ 2 ^ 32 - 1 := fun e => h (BitVec.eq_of_toNat_eq (e.trans (BitVec.toNat_allOnes).symm))
    have hlt := v.isLt
    rw [BitVec.toNat_add_of_lt (by change v.toNat + 1 < 2 ^ 32; omega)]
    change v.toNat + 1 = _
    omega

/-- A tick changes TMR only. -/
theorem State.tick_eq_setTmr (s : State) : s.tick = { s with tmr := s.tick.tmr } := by
  rcases s.tick_cases with h | ⟨t, -, h⟩ <;> rw [h]

theorem State.tick_tmr_toNat (s : State) :
    s.tick.tmr.toNat = if s.timedAt s.upc = true then min (s.tmr.toNat + 1) (2 ^ 32 - 1) else s.tmr.toNat := by
  unfold State.tick
  split
  · exact toNat_saturatingIncrement s.tmr
  · rfl

end Sys2Proof.Machine

open Sys2Proof Sys2Proof.Machine

/-- Settles O9: a tick writes TMR only, by a saturating increment at exactly the timed labels. -/
theorem tickCountsInTimedSteps : Obligations.TickCountsInTimedSteps := by
  intro s rest h
  have htick := State.tick_eq_setTmr { s with agenda := rest }
  refine ⟨({ s with agenda := rest } : State).tick.tmr, ?_, ?_⟩
  · rw [step_of_agenda_cons h]
    exact congrArg Host.Outcome.next htick
  · rw [State.tick_tmr_toNat]
    exact if_congr (State.timedAt_iff { s with agenda := rest } s.upc) rfl rfl

/-- Settles O7: both schedules reach the block's step, which runs the latched command. -/
theorem stepRunsDecodedInstruction : Obligations.StepRunsDecodedInstruction := by
  refine ⟨fun s rest i h hu hd => ?_, fun s i h he hu hd => ?_, fun s rest h hu => ?_⟩
  · rw [step_of_agenda_cons h]
    exact State.blockStep_running (s := { s with agenda := rest }) hu hd
  · rw [step_of_blockEnabled h he, State.blockStep_running hu hd]
  · rw [step_of_agenda_cons h]
    exact State.blockStep_idle (s := { s with agenda := rest }) hu

/-- Settles O8: each is the performance of the agenda's head. -/
theorem environmentMoves : Obligations.EnvironmentMoves := by
  refine fun s rest => ⟨fun b h => ?_, fun l h => ?_, fun h hlt => ?_, fun h hle => ?_⟩
  · exact step_of_agenda_cons h
  · exact step_of_agenda_cons h
  · rw [step_of_agenda_cons h]
    exact congrArg Host.Outcome.next (State.takeBaud_of_lt (s := { s with agenda := rest }) hlt)
  · rw [step_of_agenda_cons h]
    exact congrArg Host.Outcome.next (State.takeBaud_of_le (s := { s with agenda := rest }) hle)
end

section
/-! That every step keeps the invariant (41_mode_fsm.md R192, 42 R215, 60_exceptions.md R250): the part of it that
names no step label, the rules by which a step enters the next label, completes or waits, and the micro-steps. -/

namespace Sys2Proof.Machine

/-- The pins show LAST_MODE, or 00 while it is UNSET (R192 d, e). -/
def State.PinsShow (s : State) : Prop :=
  (s.lastMode = 7#3 ∧ s.modeCode = 0#2) ∨ s.lastMode = s.modeCode.setWidth 3

/-- The part of the invariant that no label enters into, with no TxWrite pending or answered: what holds in the midst
of a step. -/
structure State.Calm (s : State) : Prop where
  lastMode : s.LastModeLegal
  notOffered : s.txpend = false
  notAnswered : s.txAns = none
  baud : s.baudTaken ≤ s.baudlog.length
  memory : s.MemInv

/-- Command `i` is latched and running, in the midst of a step. -/
structure State.Under (s : State) (i : Instr) : Prop extends s.Calm where
  busy : s.busy = true
  flags : s.FlagInv
  decoded : decode s.par.payloadMax s.cmdlat = .ok i

/-- What the invariant does not read may take any value. -/
theorem State.Inv.unread {s : State} (h : s.Inv) (autobaudEn : Bool) (curBaud : Word)
    (overrun auxTo drainTo rssiValid : Bool) (result : Word) (rssiRx noise lastRssi : Byte)
    (wcount rcount : BitVec 16) (tmr : Word) (aux : BitVec 1) (txlog : List (Byte × BitVec 2))
    (agenda : List Move) (prog : List HostLine) (busReads : List (Addr × Word)) (draws : Nat) :
    ({ s with
      autobaudEn := autobaudEn, curBaud := curBaud, overrun := overrun, auxTo := auxTo, drainTo := drainTo,
      rssiValid := rssiValid, result := result, rssiRx := rssiRx, noise := noise, lastRssi := lastRssi,
      wcount := wcount, rcount := rcount, tmr := tmr, aux := aux, txlog := txlog, agenda := agenda, prog := prog,
      busReads := busReads, draws := draws } : State).Inv :=
  ⟨h.run, h.flags, h.lastMode, h.mode, h.transfer, h.memory⟩

/-- Nor does the midst of a step read these. -/
theorem State.Under.unread {s : State} {i : Instr} (b : s.Under i) (img : Image) (m0 m1 : BitVec 1) (rssiValid : Bool)
    (result : Word) (rssiRx : Byte) (ret : Option Label) (smt : BitVec 2) (wto : Bool) (rxq : List Byte) :
    ({ s with
      img := img, m0 := m0, m1 := m1, rssiValid := rssiValid, result := result, rssiRx := rssiRx, ret := ret,
      smt := smt, wto := wto, rxq := rxq } : State).Under i :=
  ⟨⟨b.lastMode, b.notOffered, b.notAnswered, b.baud, b.memory⟩, b.busy, b.flags, b.decoded⟩

/-! ### The labels of the transfers, by name -/

/-- The steps that run an RxRead (R99). -/
theorem State.reads_of_primAt {s : State} {l : Label} {base n : Nat} (h : s.primAt l = some (.rxRead base n)) :
    l.reads = true := by
  revert h
  cases l
  case dr3 => by_cases hr : s.img.rssiByteEn = 1#1 <;> simp [State.primAt, hr]
  all_goals simp [State.primAt, Label.reads]

/-- The five steps that run a TxWrite (R96). -/
def Label.sends (l : Label) : Bool := l ∈ [.rp3, .sp4, .ck4, .ds1, .qr3]

theorem State.sends_of_primAt {s : State} {l : Label} {base n : Nat} (h : s.primAt l = some (.txWrite base n)) :
    l.sends = true := by
  revert h
  cases l
  case dr3 => by_cases hr : s.img.rssiByteEn = 1#1 <;> simp [State.primAt, hr]
  all_goals simp [State.primAt, Label.sends]

/-! ### What the invariant says at a label -/

/-- Idle is the one label outside the running commands (R40, R51). -/
theorem State.Inv.idle_iff {s : State} (h : s.Inv) : s.upc = .idle ↔ s.busy = false := by
  have hr := h.run
  unfold State.RunInv at hr
  split at hr
  · next hi => simp [hi, hr]
  · next hi => simp [hi, hr]

/-- A running command is the one latched, and UPC, RET and SMT are its own. -/
theorem State.Inv.running {s : State} {i : Instr} (h : s.Inv) (hu : s.upc ≠ .idle)
    (hd : decode s.par.payloadMax s.cmdlat = .ok i) : s.busy = true ∧ s.Runs i := by
  have hr := h.run
  unfold State.RunInv at hr
  rw [if_neg hu] at hr
  obtain ⟨hb, j, hj, hr⟩ := hr
  obtain rfl : j = i := by simpa [hj] using hd
  exact ⟨hb, hr⟩

/-- A step that runs no TxWrite is in the midst of nothing. -/
theorem State.Inv.calm {s : State} (h : s.Inv) (hw : s.upc.sends = false) : s.Calm := by
  have hno : ∀ base n, s.primAt s.upc ≠ some (.txWrite base n) := fun base n hp => by
    simp [State.sends_of_primAt hp] at hw
  obtain ⟨hp, ha, -, -, hb⟩ := h.transfer
  refine ⟨h.lastMode, ?_, ?_, hb, h.memory⟩
  · cases hx : s.txpend
    · rfl
    · obtain ⟨-, base, n, hn, -⟩ := hp hx
      exact absurd hn (hno base n)
  · cases hx : s.txAns
    · rfl
    · obtain ⟨base, n, hn, -⟩ := ha _ hx
      exact absurd hn (hno base n)

theorem State.Inv.under {s : State} {i : Instr} {k : Label} (h : s.Inv)
    (hd : decode s.par.payloadMax s.cmdlat = .ok i) (hu : s.upc = k) (hk : k ≠ .idle) (hw : k.sends = false) :
    s.Under i :=
  ⟨h.calm (hu ▸ hw), (h.running (hu ▸ hk) hd).1, h.flags, hd⟩

theorem State.ModeInv.pinsShow {s : State} (h : s.ModeInv) (hu : s.upc.afterPins = false) : s.PinsShow := by
  have h1 := h.1
  rw [hu] at h1
  exact h1

/-! ### Entering the next label, and completing -/

/-- Entering a label of command `i` restores the invariant. -/
theorem State.Under.enter {s : State} {i : Instr} {l : Label} (b : s.Under i) (hl : l ≠ .idle)
    (hr : (s.goto l).Runs i) (hm : (s.goto l).ModeInv)
    (h4 : l = .dr4 → s.img.rssiByteEn = 1#1 → s.wto = false → s.rxq ≠ []) : (s.goto l).Inv := by
  refine ⟨?_, b.flags, b.lastMode, hm, ⟨?_, ?_, ?_, h4, b.baud⟩, b.memory⟩
  · unfold State.RunInv
    rw [if_neg (by exact hl)]
    exact ⟨b.busy, i, b.decoded, hr⟩
  · simp [b.notOffered]
  · simp [b.notAnswered]
  · intro base n hp
    have hreads : l.reads = true := State.reads_of_primAt hp
    simp [hreads]

/-- Entering one of the command's own labels, where it is in no call. -/
theorem State.Under.enterOwn {s : State} {i : Instr} {l : Label} (b : s.Under i) (hret : s.ret = none)
    (ho : i.owns l = true) (hs : l.isSetMode = false) (hl : l ≠ .idle) (hm : (s.goto l).ModeInv)
    (h4 : l = .dr4 → s.img.rssiByteEn = 1#1 → s.wto = false → s.rxq ≠ []) : (s.goto l).Inv := by
  refine b.enter hl ?_ hm h4
  unfold State.Runs
  rw [if_neg (by simp [hs])]
  exact ⟨hret, ho⟩

/-- The step at `k` may be followed by the one at `l` within one micro-program: nothing of the mode invariant begins
at `l`. -/
def Label.precedes (k l : Label) : Bool :=
  k ≠ .idle && l ≠ .idle && l ≠ .dr4 && k.isSetMode == l.isSetMode && k.afterPins == l.afterPins &&
    (!l.inProgram || k.inProgram) && !l.afterSession && (!l.queryPassed || k.queryPassed)

theorem State.Runs.goto {s : State} {i : Instr} {l : Label} (hr : s.Runs i) (hs : s.upc.isSetMode = l.isSetMode)
    (ho : (l.isSetMode || i.owns l) = true) : (s.goto l).Runs i := by
  unfold State.Runs at hr ⊢
  rw [hs] at hr
  cases hl : l.isSetMode <;> simp_all

theorem State.ModeInv.goto {s : State} {l : Label} (hm : s.ModeInv) (ha : s.upc.afterPins = l.afterPins)
    (hp : l.inProgram = true → s.upc.inProgram = true) (hs : l.afterSession = false)
    (hq : l.queryPassed = true → s.upc.queryPassed = true) : (s.goto l).ModeInv := by
  obtain ⟨h1, h2, -, h4⟩ := hm
  rw [ha] at h1
  exact ⟨h1, fun h => h2 (hp h), fun h => absurd (hs.symm.trans h) (by decide), fun h => h4 (hq h)⟩

/-- The step at `k` leads to the next one of its micro-program. -/
theorem State.Under.follow {s : State} {i : Instr} {k l : Label} (b : s.Under i) (hr : s.Runs i) (hm : s.ModeInv)
    (hu : s.upc = k) (hk : k.precedes l = true) (ho : (l.isSetMode || i.owns l) = true) : (s.goto l).Inv := by
  subst hu
  simp only [Label.precedes, Bool.and_eq_true, decide_eq_true_eq, beq_iff_eq, Bool.or_eq_true,
    Bool.not_eq_eq_eq_not, Bool.not_true] at hk
  obtain ⟨⟨⟨⟨⟨⟨⟨-, hi⟩, h4⟩, hsm⟩, hap⟩, hip⟩, has⟩, hqp⟩ := hk
  refine b.enter hi (hr.goto hsm ho) (hm.goto hap (fun h => ?_) has fun h => ?_) fun h => absurd h h4
  · simpa [h] using hip
  · simpa [h] using hqp

/-- `complete` restores the invariant where the pins show LAST_MODE (R252). -/
theorem State.Calm.complete {s : State} (c : s.Calm) (hp : s.PinsShow) {ok : Bool} {err : BitVec 4}
    (he : ok = true ↔ err = 0) (h4 : err.toNat ≤ 4) : (s.complete ok err).Inv := by
  refine ⟨?_, ?_, c.lastMode, ⟨hp, ?_, ?_, ?_⟩, ⟨?_, ?_, ?_, ?_, c.baud⟩, c.memory⟩
  · exact ⟨rfl, rfl⟩
  · exact ⟨by simp, by simp, by simpa using he, h4⟩
  all_goals simp [Label.inProgram, Label.afterSession, Label.queryPassed, State.primAt, c.notOffered, c.notAnswered]

theorem State.Calm.succeed {s : State} (c : s.Calm) (hp : s.PinsShow) : s.succeed.Inv :=
  c.complete hp (by simp) (by simp)

theorem State.Calm.raise {s : State} (c : s.Calm) (hp : s.PinsShow) (e : ErrCode) : (s.raise e).Inv :=
  c.complete hp (by cases e <;> decide) (by cases e <;> decide)

/-- A step that sends nothing leads to the next one. -/
theorem State.Inv.follow {s : State} {i : Instr} {k l : Label} (h : s.Inv)
    (hd : decode s.par.payloadMax s.cmdlat = .ok i) (hu : s.upc = k) (hw : k.sends = false)
    (hk : k.precedes l = true) (ho : (l.isSetMode || i.owns l) = true) : (s.goto l).Inv := by
  have hi : k ≠ .idle := fun e => by simp [e, Label.precedes] at hk
  exact (h.under hd hu hi hw).follow (h.running (hu ▸ hi) hd).2 h.mode hu hk ho

/-! ### The waiting operations -/

theorem State.Inv.delay {s : State} {l : Label} (h : s.Inv) (hn : (s.goto l).Inv) (t : Nat) : (s.delay t l).Inv := by
  rcases s.delay_cases t l with ⟨-, e⟩ | ⟨-, e⟩ <;> rw [e]
  · exact hn
  · exact h

/-- A drained byte is read by no other step. -/
theorem State.Inv.drain {s : State} {l : Label} (h : s.Inv) (hu : s.upc = .sm6) (hn : (s.goto l).Inv) :
    (s.drain l).Inv := by
  rcases s.drain_cases l with ⟨-, e⟩ | ⟨b, q, -, -, e⟩ | ⟨b, q, -, -, e⟩ <;> rw [e]
  · exact hn
  · exact hn.unread ..
  · obtain ⟨h1, h2, h3, -, h5⟩ := h.transfer
    exact ⟨h.run, h.flags, h.lastMode, h.mode, ⟨h1, h2, h3, fun h4 => by simp [hu] at h4, h5⟩, h.memory⟩

theorem State.Inv.busyWait {s : State} {l : Label} (h : s.Inv) (hn : (s.goto l).Inv) : (s.busyWait l).Inv := by
  rcases s.busyWait_cases l with e | ⟨-, e⟩ | e <;> rw [e]
  · exact hn
  · exact hn.unread ..
  · exact h

/-- WaitFor leaves by a byte that is there or by the timeout. -/
theorem State.Inv.waitRx {s : State} {leave : Bool → State} (h : s.Inv)
    (hn : ∀ b, (b = false → s.rxq ≠ []) → (leave b).Inv) (t : Nat) : (s.waitRx t leave).Inv := by
  rcases s.waitRx_cases t leave with ⟨hq, e⟩ | ⟨-, -, e⟩ | ⟨-, -, e⟩ <;> rw [e]
  · exact hn _ fun _ => hq
  · exact hn _ (by simp)
  · exact h

theorem State.MemInv.write {s : State} (h : s.MemInv) {a : Nat} (ha : isBufferByte s.par.payloadMax a = true)
    (b : Byte) : ({ s with mem := s.mem.write a b } : State).MemInv := by
  refine ⟨Memory.wf_write h.1 a b, fun c hc => ?_⟩
  rcases Memory.mem_write hc with ⟨rfl, -⟩ | hc
  · exact ha
  · exact h.2 c hc

/-- Whole ranges of buffer bytes may be written. -/
theorem State.MemInv.writeBytes {s : State} (h : s.MemInv) {base : Nat} {bs : List Byte}
    (hb : ∀ k < bs.length, isBufferByte s.par.payloadMax (base + k) = true) :
    ({ s with mem := s.mem.writeBytes base bs } : State).MemInv := by
  refine ⟨Memory.wf_writeBytes h.1 base bs, fun c hc => ?_⟩
  rcases Memory.mem_writeBytes hc with ⟨h1, h2⟩ | hc
  · have := hb (c.1 - base) (by omega)
    rwa [Nat.add_sub_cancel' h1] at this
  · exact h.2 c hc

/-- An RxRead stores only into its buffer, and counts no further than its size. -/
theorem State.Inv.rxRead {s : State} {base n : Nat} {l : Label} (h : s.Inv)
    (hp : s.primAt s.upc = some (.rxRead base n))
    (hb : ∀ k < n, isBufferByte s.par.payloadMax (base + k) = true) (hn : (s.goto l).Inv) :
    (s.rxRead base n l).Inv := by
  rcases s.rxRead_cases base n l with e | ⟨b, q, hg, -, e⟩ | e <;> rw [e]
  · exact hn.unread ..
  · obtain ⟨h1, h2, h3, -, h5⟩ := h.transfer
    have hlt : s.got.toNat < n := by have := h3 base n hp; omega
    refine ⟨h.run, h.flags, h.lastMode, h.mode, ⟨h1, h2, fun base' n' hp' => ?_, fun h4 => ?_, h5⟩,
      h.memory.write (hb _ hlt) b⟩
    · obtain ⟨-, rfl⟩ : base = base' ∧ n = n' := by simpa using hp.symm.trans hp'
      change (s.got + 1#16).toNat ≤ n
      rw [BitVec.toNat_add]
      change (s.got.toNat + 1) % 2 ^ 16 ≤ n
      omega
    · rw [show s.upc = .dr4 from h4] at hp
      simp [State.primAt] at hp
  · exact h

/-- A TxWrite offers, holds, and resumes with the answer taken. -/
theorem State.Inv.txWrite {s : State} {i : Instr} {k l : Label} {base n : Nat} (h : s.Inv)
    (hd : decode s.par.payloadMax s.cmdlat = .ok i) (hu : s.upc = k) (hp : s.primAt k = some (.txWrite base n))
    (hk : k.precedes l = true) (ho : i.owns l = true) : (s.txWrite n l).Inv := by
  subst hu
  obtain ⟨h1, h2, h3, h4, h5⟩ := h.transfer
  have hi : s.upc ≠ .idle := fun e => by simp [e, Label.precedes] at hk
  have hrun := h.running hi hd
  have resume : ∀ w, s.txpend = false → (({ s with wcount := w, txAns := none } : State).goto l).Inv := fun w hw =>
    State.Under.follow ⟨⟨h.lastMode, hw, rfl, h5, h.memory⟩, hrun.1, h.flags, hd⟩ hrun.2 h.mode rfl hk (by simp [ho])
  have size : ∀ {base' n'}, s.primAt s.upc = some (.txWrite base' n') → n = n' := fun hp' =>
    (by simpa using hp.symm.trans hp' : base = _ ∧ n = _).2
  rcases s.txWrite_cases n l with ⟨h0, e⟩ | ⟨-, -, e⟩ | ⟨w, -, hw, -, e⟩ | ⟨h0, hw, ha, e⟩ <;> rw [e]
  · have hw : s.txpend = false := by
      cases hx : s.txpend
      · rfl
      · obtain ⟨-, _, _, hp', h0'⟩ := h1 hx
        have := size hp'
        omega
    have ha : s.txAns = none := by
      cases hx : s.txAns
      · rfl
      · obtain ⟨_, _, hp', h0', -⟩ := h2 _ hx
        have := size hp'
        omega
    have := resume 0 hw
    rwa [← ha] at this
  · exact h
  · exact resume w hw
  · exact ⟨h.run, h.flags, h.lastMode, h.mode,
      ⟨fun _ => ⟨ha, base, n, hp, Nat.pos_of_ne_zero h0⟩, h2, h3, h4, h5⟩, h.memory⟩

end Sys2Proof.Machine
end

section
/-! That the block's micro-steps keep the invariant, command by command. -/

namespace Sys2Proof.Machine

/-! ### Decoding, as far as the transfers need it -/

theorem mbz_eq_ok {z : Bool} {x : Except Illegal Instr} {i : Instr} (h : mbz z x = .ok i) : x = .ok i := by
  unfold mbz at h
  split at h
  · exact h
  · simp at h

theorem constrained_eq_ok {c : Bool} {i j : Instr} (h : constrained c j = .ok i) : c = true ∧ j = i := by
  unfold constrained at h
  split at h
  · next hc => exact ⟨hc, by simpa using h⟩
  · simp at h

/-- SEND and RECEIVE carry DATA, which is at most PAYLOAD_MAX (R121, R123). -/
theorem decode_size {pm : Nat} {w : Word} {i : Instr} {n : BitVec 16} (h : decode pm w = .ok i)
    (hi : i = .send n ∨ i = .receive n) : Word.data w = n ∧ n.toNat ≤ pm := by
  unfold decode decodeFields at h
  split at h
  case h_9 | h_10 =>
    obtain ⟨hc, rfl⟩ := constrained_eq_ok (mbz_eq_ok h)
    have hn : Word.data w = n := by simpa using hi
    exact ⟨hn, by simpa [hn] using hc⟩
  case h_4 =>
    have h := mbz_eq_ok h
    split at h <;> cases h
    simp at hi
  case h_12 => cases h
  all_goals cases mbz_eq_ok h; simp at hi

theorem isBufferByte_frame {pm k : Nat} (h : k < 9) : isBufferByte pm (frameBase + k) = true := by
  rw [isBufferByte_iff]; simp only [frameBase]; omega

theorem isBufferByte_xbuf {pm k : Nat} (h : k < 6) : isBufferByte pm (xbufBase + k) = true := by
  rw [isBufferByte_iff]; simp only [xbufBase]; omega

theorem isBufferByte_rbuf {pm k : Nat} (h : k < 5) : isBufferByte pm (rbufBase + k) = true := by
  rw [isBufferByte_iff]; simp only [rbufBase]; omega

theorem isBufferByte_payload {pm k : Nat} (h : k < pm) : isBufferByte pm (payloadBase + k) = true := by
  rw [isBufferByte_iff]; simp only [payloadBase]; omega

/-! ### SET_MODE -/

/-- Requesting a baud rate appends to BAUDLOG. -/
theorem State.Under.baudReq {s : State} {i : Instr} (b : s.Under i) (r : Word) : (s.baudReq r).Under i := by
  refine { b with baud := ?_ }
  have := b.baud
  simp only [State.baudReq, List.length_append]
  omega

/-- The two halves of a mode code on the pins give it back (R35, R181). -/
theorem State.modeCode_pins (s : State) (mc : BitVec 2) : (s.pins mc).modeCode = mc := by
  have h : ∀ mc : BitVec 2, mc.extractLsb' 1 1 ++ mc.extractLsb' 0 1 = mc := by decide
  exact h mc

/-- SM2: from here on the pins show the mode being set (R192 c). -/
theorem State.Under.pins {s : State} {i : Instr} (b : s.Under i) (hu : s.upc = .sm2) (hr : s.Runs i) :
    ((s.pins s.smt).goto .sm3).Inv := by
  have hr' : (s.pins s.smt).Runs i := hr
  exact State.Under.enter (s := s.pins s.smt) (b.unread ..) nofun
    (hr'.goto (by rw [State.pins_upc, hu]; rfl) rfl) ⟨s.modeCode_pins s.smt, nofun, nofun, nofun⟩ nofun

/-- The steps behind the two calls of SET_MODE are the command's own. -/
theorem Instr.returns_labels {i : Instr} {l₁ l₂ : Label} (h : i.returns = some (l₁, l₂)) :
    i.owns l₁ = true ∧ i.owns l₂ = true ∧ l₁ ∈ [.rp3, .sp3, .ck3] ∧ l₂ ∈ [.rp8, .sp8, .ck7] := by
  cases i <;> simp [Instr.returns] at h
  all_goals obtain ⟨rfl, rfl⟩ := h; exact ⟨rfl, rfl, by decide, by decide⟩

/-- Behind the first call a session is in PROGRAM. -/
theorem Label.of_mem_sessionStarts : ∀ l ∈ [Label.rp3, .sp3, .ck3],
    l.isSetMode = false ∧ l.afterPins = false ∧ l.afterSession = false ∧ l.queryPassed = false ∧ l ≠ .idle ∧
      l ≠ .dr4 := by
  decide

/-- Behind the second call a session judges its outcome. -/
theorem Label.of_mem_sessionEnds : ∀ l ∈ [Label.rp8, .sp8, .ck7],
    l.isSetMode = false ∧ l.afterPins = false ∧ l.inProgram = false ∧ l.queryPassed = false ∧ l ≠ .idle ∧
      l ≠ .dr4 := by
  decide

/-- SM8 completes SET_MODE, or returns to a step of the calling command (R51, R185, R215). -/
theorem State.Under.recordMode {s : State} {i : Instr} (b : s.Under i) (hu : s.upc = .sm8) (hr : s.Runs i)
    (hm : s.modeCode = s.smt) : s.recordMode.Inv := by
  have legal : ({ s with lastMode := s.smt.setWidth 3 } : State).LastModeLegal :=
    .inl ((by decide : ∀ mc : BitVec 2, (mc.setWidth 3).toNat ≤ 3) s.smt)
  have shown : ({ s with lastMode := s.smt.setWidth 3 } : State).PinsShow :=
    .inr (congrArg (BitVec.setWidth 3) hm.symm)
  rcases s.recordMode_cases with ⟨-, e⟩ | ⟨l, hl, e⟩ <;> rw [e]
  · exact State.Calm.succeed (s := { s with lastMode := s.smt.setWidth 3 })
      ⟨legal, b.notOffered, b.notAnswered, b.baud, b.memory⟩ shown
  · have under : ({ s with lastMode := s.smt.setWidth 3, ret := none } : State).Under i :=
      ⟨⟨legal, b.notOffered, b.notAnswered, b.baud, b.memory⟩, b.busy, b.flags, b.decoded⟩
    have mode : l.afterPins = false → (l.inProgram = true → s.smt = 3#2) → (l.afterSession = true → s.smt = 0#2) →
        l.queryPassed = false →
        (({ s with lastMode := s.smt.setWidth 3, ret := none } : State).goto l).ModeInv := by
      intro ha hip has hqp
      refine ⟨?_, fun h => congrArg (BitVec.setWidth 3) (hip h), fun h => congrArg (BitVec.setWidth 3) (has h),
        fun h => absurd (hqp.symm.trans h) (by decide)⟩
      rw [State.goto_upc, ha]
      exact shown
    simp only [State.Runs, hu, Label.isSetMode, if_true, hl, reduceCtorEq, false_and, and_false, exists_false,
      false_or, Option.some.injEq] at hr
    obtain ⟨⟨l₁, l₂⟩, hret, hc⟩ := hr
    obtain ⟨ho₁, ho₂, hm₁, hm₂⟩ := Instr.returns_labels hret
    rcases hc with ⟨rfl, hc⟩ | ⟨rfl, hc⟩
    · obtain ⟨hsm, hap, has, hqp, hi, h4⟩ := Label.of_mem_sessionStarts _ hm₁
      exact under.enterOwn rfl ho₁ hsm hi (mode hap (fun _ => hc) (by simp [has]) hqp) fun h => absurd h h4
    · obtain ⟨hsm, hap, hip, hqp, hi, h4⟩ := Label.of_mem_sessionEnds _ hm₂
      exact under.enterOwn rfl ho₂ hsm hi (mode hap (by simp [hip]) (fun _ => hc) hqp) fun h => absurd h h4

/-- The micro-program of SET_MODE, run or called. -/
theorem State.Inv.setModeStep {s : State} {i : Instr} (h : s.Inv) (hd : decode s.par.payloadMax s.cmdlat = .ok i)
    (hs : s.upc.isSetMode = true) : ∃ t, s.setModeStep = .next t ∧ t.Inv := by
  have hrun : s.Runs i := (h.running (fun e => by simp [e, Label.isSetMode] at hs) hd).2
  unfold State.setModeStep
  split
  · next hu => exact ⟨_, rfl, h.delay (h.follow hd hu rfl rfl rfl) _⟩
  · next hu => exact ⟨_, rfl, (h.under hd hu nofun rfl).pins hu hrun⟩
  · next hu =>
    have b := h.under hd hu nofun rfl
    refine ⟨_, rfl, ?_⟩
    rcases s.switchToProgBaud_cases with ⟨-, -, e⟩ | e <;> rw [e]
    · exact (b.baudReq _).follow hrun h.mode hu rfl rfl
    · exact b.follow hrun h.mode hu rfl rfl
  · next hu =>
    have b := h.under hd hu nofun rfl
    refine ⟨_, rfl, ?_⟩
    rcases s.restoreBaud_cases with ⟨-, -, e⟩ | e <;> rw [e]
    · exact (b.baudReq _).follow hrun h.mode hu rfl rfl
    · exact b.follow hrun h.mode hu rfl rfl
  · next hu => exact ⟨_, rfl, h.delay (h.follow hd hu rfl rfl rfl) _⟩
  · next hu => exact ⟨_, rfl, h.drain hu (h.follow hd hu rfl rfl rfl)⟩
  · next hu => exact ⟨_, rfl, h.busyWait (h.follow hd hu rfl rfl rfl)⟩
  · next hu =>
    have hm := h.mode.1
    rw [hu] at hm
    exact ⟨_, rfl, (h.under hd hu nofun rfl).recordMode hu hrun hm⟩
  · revert hs
    cases hu : s.upc <;> simp_all [Label.isSetMode]

/-- A configuration command calls SET_MODE(3) and then SET_MODE(0), and returns behind each (R211, R213, R214). -/
theorem State.Inv.callSetMode {s : State} {i : Instr} {k l l₁ l₂ : Label} {mc : BitVec 2} (h : s.Inv)
    (hd : decode s.par.payloadMax s.cmdlat = .ok i) (hu : s.upc = k) (hk : k ≠ .idle) (hw : k.sends = false)
    (hp : k.afterPins = false) (hi : i.returns = some (l₁, l₂)) (hc : (l = l₁ ∧ mc = 3#2) ∨ (l = l₂ ∧ mc = 0#2)) :
    (s.callSetMode mc l).Inv := by
  have b := h.under hd hu hk hw
  refine State.Under.enter (s := { s with ret := some l, smt := mc }) (i := i) (b.unread ..) nofun
    (.inr ⟨_, hi, ?_⟩) ⟨h.mode.pinsShow (hu ▸ hp), nofun, nofun, nofun⟩ nofun
  rcases hc with ⟨rfl, rfl⟩ | ⟨rfl, rfl⟩
  · exact .inl ⟨rfl, rfl⟩
  · exact .inr ⟨rfl, rfl⟩

/-! ### The commands' own steps -/

theorem State.Runs.own {s : State} {i : Instr} (hr : s.Runs i) (hs : s.upc.isSetMode = false) :
    s.ret = none ∧ i.owns s.upc = true := by
  unfold State.Runs at hr
  rwa [if_neg (by simp [hs])] at hr

theorem State.Under.writeBytes {s : State} {i : Instr} (b : s.Under i) {base : Nat} {bs : List Byte}
    (hb : ∀ k < bs.length, isBufferByte s.par.payloadMax (base + k) = true) :
    ({ s with mem := s.mem.writeBytes base bs } : State).Under i :=
  { b with memory := b.memory.writeBytes hb }

theorem State.Under.stageFrame {s : State} {i : Instr} (b : s.Under i) (c : Byte) : (s.stageFrame c).Under i :=
  b.writeBytes fun _ hk => isBufferByte_frame hk

/-- The mode invariant reads the image at QUERY_RSSI's steps only. -/
theorem State.ModeInv.unpackFrame {s : State} (h : s.ModeInv) (hu : s.upc = .rp6) : s.unpackFrame.ModeInv := by
  obtain ⟨h1, h2, h3, -⟩ := h
  exact ⟨h1, h2, h3, by simp [hu, Label.queryPassed]⟩

/-- A step outside SET_MODE that sends nothing may complete, with either outcome. -/
theorem State.Inv.completes {s : State} {k : Label} (h : s.Inv) (hu : s.upc = k) (hw : k.sends = false)
    (hp : k.afterPins = false) : s.succeed.Inv ∧ ∀ e, (s.raise e).Inv :=
  have c := h.calm (hu ▸ hw)
  have hp := h.mode.pinsShow (hu ▸ hp)
  ⟨c.succeed hp, c.raise hp⟩

/-- The codec commands complete in their one step, with a new image or a RESULT (R161 to R164). -/
theorem State.Inv.codecSucceeds {s : State} {k : Label} (h : s.Inv) (hu : s.upc = k)
    (hk : k ∈ [.sf1, .gf1, .lr1, .nd1]) (img : Image) (result : Word) :
    ({ s with img := img, result := result } : State).succeed.Inv := by
  have hw : ∀ l ∈ [Label.sf1, .gf1, .lr1, .nd1], l.sends = false ∧ l.afterPins = false := by decide
  obtain ⟨hw, hp⟩ := hw k hk
  have c := h.calm (hu ▸ hw)
  exact State.Calm.succeed (s := { s with img := img, result := result })
    ⟨c.lastMode, c.notOffered, c.notAnswered, c.baud, c.memory⟩ (h.mode.pinsShow (hu ▸ hp))

/-- READ_PARAMS (R211, R212). -/
theorem State.Inv.execReadParams {s : State} (h : s.Inv) (hd : decode s.par.payloadMax s.cmdlat = .ok .readParams)
    (ho : Instr.readParams.owns s.upc = true) : ∃ t, Machine.execReadParams s = .next t ∧ t.Inv := by
  have hrun : s.Runs .readParams := (h.running (fun e => by simp [e, Instr.owns] at ho) hd).2
  unfold Machine.execReadParams
  split
  · next hu => exact ⟨_, rfl, ((h.under hd hu nofun rfl).stageFrame _).follow hrun h.mode hu rfl rfl⟩
  · next hu => exact ⟨_, rfl, h.callSetMode hd hu nofun rfl rfl rfl (.inl ⟨rfl, rfl⟩)⟩
  · next hu => exact ⟨_, rfl, h.txWrite hd hu rfl rfl rfl⟩
  · next hu => exact ⟨_, rfl, h.delay (h.follow hd hu rfl rfl rfl) _⟩
  · next hu =>
    exact ⟨_, rfl, h.rxRead (hu ▸ rfl) (fun _ => isBufferByte_frame) (h.follow hd hu rfl rfl rfl)⟩
  · next hu =>
    have b : s.unpackFrame.Under .readParams := (h.under hd hu nofun rfl).unread ..
    exact ⟨_, rfl, b.follow (s := s.unpackFrame) hrun (h.mode.unpackFrame hu) hu rfl rfl⟩
  · next hu => exact ⟨_, rfl, h.callSetMode hd hu nofun rfl rfl rfl (.inr ⟨rfl, rfl⟩)⟩
  · next hu =>
    obtain ⟨hok, herr⟩ := h.completes hu rfl rfl
    refine ⟨_, rfl, ?_⟩
    split
    · exact herr _
    · split
      · exact herr _
      · exact hok
  · simp_all [Instr.owns]

/-- SAVE_PARAMS (R213). -/
theorem State.Inv.execSaveParams {s : State} {p : Persistence} (h : s.Inv)
    (hd : decode s.par.payloadMax s.cmdlat = .ok (.saveParams p)) (ho : (Instr.saveParams p).owns s.upc = true) :
    ∃ t, Machine.execSaveParams p s = .next t ∧ t.Inv := by
  have hrun : s.Runs (.saveParams p) := (h.running (fun e => by simp [e, Instr.owns] at ho) hd).2
  unfold Machine.execSaveParams
  split
  · next hu => exact ⟨_, rfl, ((h.under hd hu nofun rfl).stageFrame _).follow hrun h.mode hu rfl rfl⟩
  · next hu => exact ⟨_, rfl, h.callSetMode hd hu nofun rfl rfl rfl (.inl ⟨rfl, rfl⟩)⟩
  · next hu => exact ⟨_, rfl, h.delay (h.follow hd hu rfl rfl rfl) _⟩
  · next hu => exact ⟨_, rfl, h.txWrite hd hu rfl rfl rfl⟩
  · next hu => exact ⟨_, rfl, h.waitRx (fun _ _ => h.follow hd hu rfl rfl rfl) _⟩
  · next hu =>
    exact ⟨_, rfl, h.rxRead (hu ▸ rfl) (fun _ => isBufferByte_frame) (h.follow hd hu rfl rfl rfl)⟩
  · next hu => exact ⟨_, rfl, h.callSetMode hd hu nofun rfl rfl rfl (.inr ⟨rfl, rfl⟩)⟩
  · next hu =>
    obtain ⟨hok, herr⟩ := h.completes hu rfl rfl
    refine ⟨_, rfl, ?_⟩
    split
    · exact herr _
    · exact hok
  · simp_all [Instr.owns]

/-- SET_CRYPT_KEY (R214). -/
theorem State.Inv.execSetCryptKey {s : State} {key : BitVec 16} (h : s.Inv)
    (hd : decode s.par.payloadMax s.cmdlat = .ok (.setCryptKey key))
    (ho : (Instr.setCryptKey key).owns s.upc = true) : ∃ t, Machine.execSetCryptKey key s = .next t ∧ t.Inv := by
  have hrun : s.Runs (.setCryptKey key) := (h.running (fun e => by simp [e, Instr.owns] at ho) hd).2
  unfold Machine.execSetCryptKey
  split
  · next hu =>
    have b := (h.under hd hu nofun rfl).writeBytes (base := xbufBase) (bs := cryptCommand key) fun _ hk =>
      isBufferByte_xbuf (Nat.lt_succ_of_lt hk)
    exact ⟨_, rfl, b.follow hrun h.mode hu rfl rfl⟩
  · next hu => exact ⟨_, rfl, h.callSetMode hd hu nofun rfl rfl rfl (.inl ⟨rfl, rfl⟩)⟩
  · next hu => exact ⟨_, rfl, h.delay (h.follow hd hu rfl rfl rfl) _⟩
  · next hu => exact ⟨_, rfl, h.txWrite hd hu rfl rfl rfl⟩
  · next hu =>
    exact ⟨_, rfl, h.rxRead (hu ▸ rfl) (fun _ => isBufferByte_rbuf) (h.follow hd hu rfl rfl rfl)⟩
  · next hu => exact ⟨_, rfl, h.callSetMode hd hu nofun rfl rfl rfl (.inr ⟨rfl, rfl⟩)⟩
  · next hu =>
    obtain ⟨hok, herr⟩ := h.completes hu rfl rfl
    refine ⟨_, rfl, ?_⟩
    split
    · exact herr _
    · exact hok
  · simp_all [Instr.owns]

/-- SEND (R231). -/
theorem State.Inv.execSend {s : State} {n : BitVec 16} (h : s.Inv)
    (hd : decode s.par.payloadMax s.cmdlat = .ok (.send n)) (ho : (Instr.send n).owns s.upc = true) :
    ∃ t, Machine.execSend n s = .next t ∧ t.Inv := by
  obtain ⟨hn, -⟩ := decode_size hd (.inl rfl)
  unfold Machine.execSend
  split
  · next hu => exact ⟨_, rfl, h.txWrite hd hu (by rw [← hn]; rfl) rfl rfl⟩
  · next hu => exact ⟨_, rfl, h.busyWait (h.follow hd hu rfl rfl rfl)⟩
  · next hu =>
    obtain ⟨hok, herr⟩ := h.completes hu rfl rfl
    refine ⟨_, rfl, ?_⟩
    split
    · exact herr _
    · exact hok
  · simp_all [Instr.owns]

/-- DR3 leaves for DR4 with WTO = 0 only where a byte is there to be popped (R232). -/
theorem State.Inv.rssiPoll {s : State} {n : BitVec 16} (h : s.Inv)
    (hd : decode s.par.payloadMax s.cmdlat = .ok (.receive n)) (hu : s.upc = .dr3) : (s.rssiPoll .dr4).Inv := by
  have b := h.under hd hu nofun rfl
  have hret : s.ret = none := ((h.running (by simp [hu]) hd).2.own (by rw [hu]; rfl)).1
  have leave : ∀ w, (w = false → s.img.rssiByteEn = 1#1 → s.rxq ≠ []) →
      (({ s with wto := w } : State).goto .dr4).Inv := fun w hq =>
    State.Under.enterOwn (s := { s with wto := w }) (i := .receive n) (b.unread ..) hret rfl rfl nofun
      ⟨h.mode.pinsShow (by rw [hu]; rfl), nofun, nofun, nofun⟩ fun _ he hw => hq hw he
  unfold State.rssiPoll
  split
  · exact h.waitRx (fun w hw => leave w fun e _ => hw e) _
  · next he => exact leave true nofun

/-- DR4's pop finds a byte (R98, R232). -/
theorem State.Inv.rssiTake {s : State} {n : BitVec 16} (h : s.Inv)
    (hd : decode s.par.payloadMax s.cmdlat = .ok (.receive n)) (hu : s.upc = .dr4) :
    ∃ t, s.rssiTake .dr5 = .next t ∧ t.Inv := by
  have b := h.under hd hu nofun rfl
  have hrun := (h.running (by simp [hu]) hd).2
  obtain ⟨-, -, -, h4, -⟩ := h.transfer
  unfold State.rssiTake
  split
  · next hc =>
    split
    · next v q hq =>
      exact ⟨_, rfl, State.Under.follow (s := { s with rxq := q, rssiRx := v, rssiValid := true }) (b.unread ..) hrun
        h.mode hu rfl rfl⟩
    · next hq => exact absurd hq (h4 hu hc.1 hc.2)
  · exact ⟨_, rfl, b.follow hrun h.mode hu rfl rfl⟩

/-- RECEIVE (R232). -/
theorem State.Inv.execReceive {s : State} {n : BitVec 16} (h : s.Inv)
    (hd : decode s.par.payloadMax s.cmdlat = .ok (.receive n)) (ho : (Instr.receive n).owns s.upc = true) :
    ∃ t, Machine.execReceive n s = .next t ∧ t.Inv := by
  obtain ⟨hn, hle⟩ := decode_size hd (.inr rfl)
  unfold Machine.execReceive
  split
  · next hu =>
    have hn : (s.goto .dr2).Inv := h.follow hd hu rfl rfl rfl
    exact ⟨_, rfl, hn.unread ..⟩
  · next hu =>
    exact ⟨_, rfl, h.rxRead (by rw [← hn, hu]; rfl) (fun _ hk => isBufferByte_payload (Nat.lt_of_lt_of_le hk hle))
      (h.follow hd hu rfl rfl rfl)⟩
  · next hu => exact ⟨_, rfl, h.rssiPoll hd hu⟩
  · next hu => exact h.rssiTake hd hu
  · next hu => exact ⟨_, rfl, h.busyWait (h.follow hd hu rfl rfl rfl)⟩
  · next hu =>
    obtain ⟨hok, herr⟩ := h.completes hu rfl rfl
    refine ⟨_, rfl, ?_⟩
    split
    · exact herr _
    · exact hok
  · simp_all [Instr.owns]

/-- QUERY_RSSI (R233). -/
theorem State.Inv.execQueryRssi {s : State} (h : s.Inv)
    (hd : decode s.par.payloadMax s.cmdlat = .ok .queryRssi) (ho : Instr.queryRssi.owns s.upc = true) :
    ∃ t, Machine.execQueryRssi s = .next t ∧ t.Inv := by
  have hrun : s.Runs .queryRssi := (h.running (fun e => by simp [e, Instr.owns] at ho) hd).2
  unfold Machine.execQueryRssi
  split
  · next hu =>
    refine ⟨_, rfl, ?_⟩
    split
    · exact (h.completes hu rfl rfl).2 _
    · next hc =>
      obtain ⟨hamb, hnormal⟩ : s.img.ambNoiseEn = 1#1 ∧ s.lastMode = 0#3 := by
        rw [not_or, not_not] at hc
        exact ⟨(BitVec.eq_zero_or_eq_one _).resolve_left hc.1, hc.2⟩
      exact (h.under hd hu nofun rfl).enterOwn (hrun.own (by rw [hu]; rfl)).1 rfl rfl nofun
        ⟨h.mode.pinsShow (by rw [hu]; rfl), nofun, nofun, fun _ => ⟨hnormal, hamb⟩⟩ nofun
  · next hu =>
    have b := (h.under hd hu nofun rfl).writeBytes (base := xbufBase) (bs := rssiQueryCommand) fun _ hk =>
      isBufferByte_xbuf hk
    exact ⟨_, rfl, b.follow hrun h.mode hu rfl rfl⟩
  · next hu => exact ⟨_, rfl, h.txWrite hd hu rfl rfl rfl⟩
  · next hu => exact ⟨_, rfl, h.delay (h.follow hd hu rfl rfl rfl) _⟩
  · next hu =>
    exact ⟨_, rfl, h.rxRead (hu ▸ rfl) (fun _ => isBufferByte_rbuf) (h.follow hd hu rfl rfl rfl)⟩
  · next hu =>
    obtain ⟨hok, herr⟩ := h.completes hu rfl rfl
    refine ⟨_, rfl, ?_⟩
    split
    · exact herr _
    · exact hok.unread ..
  · simp_all [Instr.owns]

/-- A step of a command's own. -/
theorem State.Inv.execOwn {s : State} {i : Instr} (h : s.Inv) (hd : decode s.par.payloadMax s.cmdlat = .ok i)
    (hs : s.upc.isSetMode = false) (ho : i.owns s.upc = true) : ∃ t, exec i s = .next t ∧ t.Inv := by
  cases i with
  | setMode mc => exact absurd (hs.symm.trans ho) (by decide)
  | setField f v =>
    have hu : s.upc = .sf1 := by simpa [Instr.owns] using ho
    simp only [exec, execSetField, hu]
    exact ⟨_, rfl, h.codecSucceeds hu (by decide) _ _⟩
  | getField f =>
    have hu : s.upc = .gf1 := by simpa [Instr.owns] using ho
    simp only [exec, execGetField, hu]
    exact ⟨_, rfl, h.codecSucceeds hu (by decide) _ _⟩
  | loadReg r b =>
    have hu : s.upc = .lr1 := by simpa [Instr.owns] using ho
    simp only [exec, execLoadReg, hu]
    exact ⟨_, rfl, h.codecSucceeds hu (by decide) _ _⟩
  | noiseDbm raw =>
    have hu : s.upc = .nd1 := by simpa [Instr.owns] using ho
    simp only [exec, execNoiseDbm, hu]
    exact ⟨_, rfl, h.codecSucceeds hu (by decide) _ _⟩
  | readParams => exact h.execReadParams hd ho
  | saveParams p => exact h.execSaveParams hd ho
  | setCryptKey key => exact h.execSetCryptKey hd ho
  | send n => exact h.execSend hd ho
  | receive n => exact h.execReceive hd ho
  | queryRssi => exact h.execQueryRssi hd ho

/-- At SET_MODE's labels a configuration command runs SET_MODE's own step (R51, R193). -/
theorem exec_of_isSetMode {s : State} {i : Instr} (hs : s.upc.isSetMode = true)
    (hi : (∃ mc, i = .setMode mc) ∨ i.returns.isSome = true) : exec i s = s.setModeStep := by
  rcases hi with ⟨mc, rfl⟩ | hi
  · rfl
  · cases i <;> simp [Instr.returns] at hi
    all_goals
      simp only [exec, execReadParams, execSaveParams, execSetCryptKey]
      split <;> simp_all [Label.isSetMode]

/-- From a good state the running command's micro-step answers a good state. -/
theorem State.Inv.exec {s : State} {i : Instr} (h : s.Inv) (hu : s.upc ≠ .idle)
    (hd : decode s.par.payloadMax s.cmdlat = .ok i) : ∃ t, Machine.exec i s = .next t ∧ t.Inv := by
  obtain ⟨-, hr⟩ := h.running hu hd
  cases hs : s.upc.isSetMode
  · exact h.execOwn hd hs (hr.own hs).2
  · rw [exec_of_isSetMode hs]
    · exact h.setModeStep hd hs
    · unfold State.Runs at hr
      rw [if_pos hs] at hr
      rcases hr with ⟨mc, rfl, -⟩ | ⟨p, hp, -⟩
      · exact .inl ⟨mc, rfl⟩
      · exact .inr (by simp [hp])

/-- Nor does the block's step stop. -/
theorem State.Inv.blockStep {s : State} (h : s.Inv) : ∃ t, s.blockStep = .next t ∧ t.Inv := by
  unfold State.blockStep
  split
  · exact ⟨s, rfl, h⟩
  · next hu =>
    have hr := h.run
    unfold State.RunInv at hr
    rw [if_neg hu] at hr
    obtain ⟨-, i, hd, -⟩ := hr
    rw [hd]
    exact h.exec hu hd

end Sys2Proof.Machine
end

section
/-! That the steps of the host, the clock and the environment keep the invariant, and that no step of any agent
stops. -/

namespace Sys2Proof.Machine

/-! ### Reset and acceptance -/

/-- A reset meets the invariant, whatever it draws (R280, R281). -/
theorem State.resetBlock_inv (s : State) (d : ResetDraw) (hb : s.baudTaken ≤ s.baudlog.length) :
    (s.resetBlock d).Inv :=
  ⟨⟨rfl, rfl⟩, ⟨by simp [State.resetBlock], by simp [State.resetBlock], by simp [State.resetBlock],
      (by decide : (0 : BitVec 4).toNat ≤ 4)⟩,
    .inr rfl, ⟨.inl ⟨rfl, (by decide : (0 : BitVec 1) ++ (0 : BitVec 1) = 0#2)⟩, nofun, nofun, nofun⟩,
    ⟨nofun, nofun, nofun, nofun, hb⟩,
    Memory.wf_ofDraw _ _, fun _ => Memory.mem_ofDraw⟩

/-- An idle state is in no call, is calm, and its pins show LAST_MODE. -/
theorem State.Inv.idle {s : State} (h : s.Inv) (hb : s.busy = false) :
    s.ret = none ∧ s.Calm ∧ s.PinsShow := by
  have hu := h.idle_iff.2 hb
  have hr := h.run
  unfold State.RunInv at hr
  rw [if_pos hu] at hr
  exact ⟨hr.2, h.calm (by rw [hu]; rfl), h.mode.pinsShow (by rw [hu]; rfl)⟩

theorem Instr.firstLabel_owned (i : Instr) : i.owns i.firstLabel = true := by cases i <;> rfl

/-- The first step of a command is behind no pin change, no session and no precondition. -/
theorem Instr.firstLabel_plain (i : Instr) :
    i.firstLabel ≠ .idle ∧ i.firstLabel ≠ .dr4 ∧ i.firstLabel.afterPins = false ∧ i.firstLabel.inProgram = false ∧
      i.firstLabel.afterSession = false ∧ i.firstLabel.queryPassed = false := by
  cases i <;> exact ⟨nofun, nofun, rfl, rfl, rfl, rfl⟩

/-- Where the pins show LAST_MODE, every command may enter its first step. -/
theorem State.PinsShow.modeInv_first {s : State} (hp : s.PinsShow) (i : Instr) : (s.goto i.firstLabel).ModeInv := by
  obtain ⟨-, -, hap, hip, has, hqp⟩ := Instr.firstLabel_plain i
  unfold State.ModeInv
  rw [State.goto_upc, hap, hip, has, hqp]
  exact ⟨hp, nofun, nofun, nofun⟩

/-- Acceptance starts a legal command, and completes an illegal word (R251, R253). -/
theorem State.Inv.accept {s : State} (h : s.Inv) (hb : s.busy = false) (v : Word) : (s.accept v).Inv := by
  obtain ⟨hret, c, hp⟩ := h.idle hb
  have c' : (s.latch v).Calm := ⟨c.lastMode, c.notOffered, c.notAnswered, c.baud, c.memory⟩
  rcases s.accept_cases v with ⟨-, -, e⟩ | ⟨i, hd, e⟩ <;> rw [e]
  · exact c'.raise hp _
  · have b : (s.latch v).Under i := ⟨c', rfl, ⟨by simp, by simp, by simp, (by decide : (0 : BitVec 4).toNat ≤ 4)⟩, hd⟩
    obtain ⟨hi, h4, -⟩ := Instr.firstLabel_plain i
    rcases (s.latch v).start_cases i with ⟨mc, rfl, e⟩ | ⟨hmc, e⟩ <;> rw [e]
    · exact State.Under.enter (s := { s.latch v with smt := mc, ret := none }) (i := .setMode mc) (b.unread ..) nofun
        (.inl ⟨mc, rfl, rfl, rfl⟩) (hp.modeInv_first (.setMode mc)) nofun
    · have hs : i.firstLabel.isSetMode = false := by
        cases i
        case setMode mc => exact absurd rfl (hmc _)
        all_goals rfl
      exact b.enterOwn hret (Instr.firstLabel_owned i) hs hi (State.PinsShow.modeInv_first (s := s.latch v) hp i)
        fun e => absurd e h4

/-! ### The host -/

theorem State.Inv.writePayloadByte {s : State} (h : s.Inv) (a : Nat) (b : Byte) : (s.writePayloadByte a b).Inv := by
  unfold State.writePayloadByte
  split
  · next ha =>
    have ha : isBufferByte s.par.payloadMax a = true := by simp [isBufferByte, ha]
    exact ⟨h.run, h.flags, h.lastMode, h.mode, h.transfer, h.memory.write ha b⟩
  · exact h

theorem State.Inv.writePayloadWord {s : State} (h : s.Inv) (w : Nat) (v : Word) : (s.writePayloadWord w v).Inv :=
  (((h.writePayloadByte _ _).writePayloadByte _ _).writePayloadByte _ _).writePayloadByte _ _

/-- Every host access keeps the invariant (R81). -/
theorem State.Inv.access {s : State} (h : s.Inv) (x : Access) : (s.access x).Inv := by
  rcases s.access_any x with ⟨b, e⟩ | ⟨v, hb, e⟩ | e | ⟨a, v, -, -, -, e⟩ | ⟨a, v, -, -, -, e⟩ | ⟨a, v, -, -, -, e⟩ |
    ⟨a, v, -, -, -, e⟩ <;> rw [e]
  case inr.inl => exact h.accept hb v
  case inr.inr.inr.inr.inr.inr => exact h.writePayloadWord _ _
  all_goals exact h.unread ..

/-! ### The clock and the environment -/

theorem State.Inv.tick {s : State} (h : s.Inv) : s.tick.Inv := by
  rcases s.tick_cases with e | ⟨t, -, e⟩ <;> rw [e]
  · exact h
  · exact h.unread ..

/-- A received byte takes nothing from DR4. -/
theorem State.Inv.rxAppend {s : State} (h : s.Inv) (q : List Byte) : ({ s with rxq := s.rxq ++ q } : State).Inv := by
  obtain ⟨h1, h2, h3, h4, h5⟩ := h.transfer
  exact ⟨h.run, h.flags, h.lastMode, h.mode,
    ⟨h1, h2, h3, fun hu he hw => List.append_ne_nil_of_left_ne_nil (h4 hu he hw) q, h5⟩, h.memory⟩

/-- An answer ends the offer with a count of at most its size (R96). -/
theorem State.Inv.txAnswer {s : State} (h : s.Inv) (w : BitVec 16) : (s.txAnswer w).Inv := by
  rcases s.txAnswer_cases w with e | ⟨base, n, hw, hp, hle, e⟩ <;> rw [e]
  · exact h
  · obtain ⟨h1, h2, h3, h4, h5⟩ := h.transfer
    obtain ⟨-, base', n', hp', hn⟩ := h1 hw
    obtain rfl : n = n' := (by simpa using hp.symm.trans hp' : base = base' ∧ n = n').2
    refine ⟨h.run, h.flags, h.lastMode, h.mode, ⟨nofun, fun w' hw' => ?_, h3, h4, h5⟩, h.memory⟩
    obtain rfl : w = w' := by simpa using hw'
    exact ⟨base, n, hp, hn, hle⟩

theorem State.Inv.takeBaud {s : State} (h : s.Inv) : s.takeBaud.Inv := by
  rcases s.takeBaud_cases with e | ⟨hlt, e⟩ <;> rw [e]
  · exact h
  · obtain ⟨h1, h2, h3, h4, -⟩ := h.transfer
    exact ⟨h.run, h.flags, h.lastMode, h.mode, ⟨h1, h2, h3, h4, hlt⟩, h.memory⟩

/-! ### Every step -/

/-- Every step that answers a state answers a good one. -/
theorem State.Inv.stepCase {s t : State} (h : s.Inv) (c : StepCase s t) : t.Inv := by
  have same : ∀ u : State, (u = s ∨ ∃ rest, u = { s with agenda := rest }) → u.Inv := by
    rintro u (rfl | ⟨rest, rfl⟩)
    · exact h
    · exact h.unread ..
  cases c with
  | block u t i _ hu hn hd hx =>
    have hui : u.upc ≠ .idle ∧ decode u.par.payloadMax u.cmdlat = .ok i := by
      rcases hu with rfl | ⟨rest, rfl⟩ <;> exact ⟨hn, hd⟩
    obtain ⟨t', ht', hinv⟩ := (same u hu).exec hui.1 hui.2
    obtain rfl : t' = t := by simpa using ht'.symm.trans hx
    exact hinv
  | access u t x _ hu ht =>
    obtain ⟨a, p, rfl⟩ := hu
    subst ht
    exact State.Inv.access (s := { s with agenda := a, prog := p }) (h.unread ..) x
  | poll a p b => exact h.unread ..
  | reset rest d =>
    obtain ⟨-, -, -, -, hb⟩ := h.transfer
    exact State.resetBlock_inv _ d hb
  | tick u t hu ht => exact ht ▸ (same u hu).tick
  | env rest q l hq =>
    rcases hq with rfl | ⟨b, rfl⟩
    · exact h.unread ..
    · exact (h.rxAppend [b]).unread ..
  | tx u t w dr _ hu ht => exact ht ▸ ((same u hu).txAnswer w).unread ..
  | baud rest t ht => exact ht ▸ State.Inv.takeBaud (s := { s with agenda := rest }) (h.unread ..)

/-- From a good state every step answers a state: only the block's step could stop, and it does not (R255, R259). -/
theorem State.Inv.step_next {s : State} (h : s.Inv) : ∃ t, step s = .next t := by
  have block : ∀ {u : State}, u.Inv → ∃ t, u.blockStep = .next t := fun hu =>
    let ⟨t, ht, _⟩ := hu.blockStep
    ⟨t, ht⟩
  unfold step
  split
  · next m rest _ =>
    cases m with
    | block => exact block (u := { s with agenda := rest }) (h.unread ..)
    | _ => exact ⟨_, rfl⟩
  · unfold State.autoStep
    split
    · exact block h
    · split
      · exact ⟨_, rfl⟩
      · split <;> exact ⟨_, rfl⟩

end Sys2Proof.Machine

open Sys2Proof Sys2Proof.Machine

/-- Settles O25: each agent's step keeps the invariant, and the block's faults are out of its reach. -/
theorem everyStepKeepsInvariant : Obligations.EveryStepKeepsInvariant := by
  intro s h
  obtain ⟨t, ht⟩ := h.step_next
  exact ⟨t, ht, h.stepCase (step_stepCase ht)⟩

end

section
/-! Who writes what (10_state.md R32 to R54, 20_memory.md R94 to R100): what one step of the block may change, by the
label it runs at, and the obligations about memory, the logs and the writers of the block's state. -/

namespace Sys2Proof.Machine

/-- What a step of the block leaves as it is but at the labels named: the image, RESULT, the samples, RSSI_VALID and
CUR_BAUD; BAUDLOG only grows, and memory changes within what the step stores to. -/
structure BlockEffect (s t : State) : Prop where
  img : t.img = s.img ∨ s.upc ∈ [.sf1, .lr1, .rp6]
  result : t.result = s.result ∨ s.upc ∈ [.gf1, .nd1]
  rssiRx : t.rssiRx = s.rssiRx ∨ s.upc = .dr4
  samples : (t.noise = s.noise ∧ t.lastRssi = s.lastRssi) ∨ s.upc = .qr6
  rssiValid : t.rssiValid = s.rssiValid ∨ s.upc ∈ [.dr1, .dr4]
  baud : (t.curBaud = s.curBaud ∧ t.baudlog = s.baudlog) ∨ s.upc ∈ [.sm3, .sm4]
  baudlog : ∃ l, t.baudlog = s.baudlog ++ l
  mem : ∃ bs, bs.length ≤ s.stores.2 ∧ t.mem = s.mem.writeBytes s.stores.1 bs

/-- A step that changes none of it but memory, within its range. -/
theorem BlockEffect.stored {s t : State}
    (h : t = { t with
      img := s.img, result := s.result, rssiRx := s.rssiRx, noise := s.noise, lastRssi := s.lastRssi,
      rssiValid := s.rssiValid, curBaud := s.curBaud, baudlog := s.baudlog })
    (hm : ∃ bs, bs.length ≤ s.stores.2 ∧ t.mem = s.mem.writeBytes s.stores.1 bs) : BlockEffect s t := by
  refine ⟨.inl ?_, .inl ?_, .inl ?_, .inl ⟨?_, ?_⟩, .inl ?_, .inl ⟨?_, ?_⟩, ⟨[], ?_⟩, hm⟩ <;> rw [h]
  exact (List.append_nil _).symm

/-- A step that changes none of it. -/
theorem BlockEffect.same {s t : State}
    (h : t = { t with
      img := s.img, result := s.result, rssiRx := s.rssiRx, noise := s.noise, lastRssi := s.lastRssi,
      rssiValid := s.rssiValid, curBaud := s.curBaud, baudlog := s.baudlog, mem := s.mem }) : BlockEffect s t :=
  .stored (h.trans (by rw [h])) ⟨[], Nat.zero_le _, (congrArg State.mem h :)⟩

theorem BlockEffect.goto (s : State) (l : Label) : BlockEffect s (s.goto l) :=
  .same rfl

theorem BlockEffect.complete (s : State) (ok : Bool) (err : BitVec 4) : BlockEffect s (s.complete ok err) :=
  .same rfl

theorem BlockEffect.refl (s : State) : BlockEffect s s :=
  .same rfl

theorem BlockEffect.callSetMode (s : State) (mc : BitVec 2) (l : Label) : BlockEffect s (s.callSetMode mc l) :=
  .same rfl

theorem BlockEffect.delay (s : State) (t : Nat) (l : Label) : BlockEffect s (s.delay t l) := by
  rcases s.delay_cases t l with ⟨-, e⟩ | ⟨-, e⟩ <;> rw [e]
  · exact .goto s l
  · exact .refl s

theorem BlockEffect.waitRx (s : State) (t : Nat) {leave : Bool → State} (h : ∀ b, BlockEffect s (leave b)) :
    BlockEffect s (s.waitRx t leave) := by
  rcases s.waitRx_cases t leave with ⟨-, e⟩ | ⟨-, -, e⟩ | ⟨-, -, e⟩ <;> rw [e]
  · exact h _
  · exact h _
  · exact .refl s

theorem BlockEffect.drain (s : State) (l : Label) : BlockEffect s (s.drain l) := by
  rcases s.drain_cases l with ⟨-, e⟩ | ⟨_, _, -, -, e⟩ | ⟨_, _, -, -, e⟩ <;> rw [e] <;>
    exact .same rfl

theorem BlockEffect.busyWait (s : State) (l : Label) : BlockEffect s (s.busyWait l) := by
  rcases s.busyWait_cases l with e | ⟨-, e⟩ | e <;> rw [e] <;>
    exact .same rfl

theorem BlockEffect.txWrite (s : State) (n : Nat) (l : Label) : BlockEffect s (s.txWrite n l) := by
  rcases s.txWrite_cases n l with ⟨-, e⟩ | ⟨-, -, e⟩ | ⟨_, -, -, -, e⟩ | ⟨-, -, -, e⟩ <;> rw [e] <;>
    exact .same rfl

/-- An RxRead stores one byte at its buffer's index GOT (R99). -/
theorem BlockEffect.rxRead (s : State) {base : Nat} (n : Nat) (l : Label) (h : s.stores = (base + s.got.toNat, 1)) :
    BlockEffect s (s.rxRead base n l) := by
  rcases s.rxRead_cases base n l with e | ⟨b, q, -, -, e⟩ | e <;> rw [e]
  · exact .same rfl
  · exact .stored rfl ⟨[b], by simp [h], by rw [h]; rfl⟩
  · exact .refl s

/-- A stored frame or command. -/
theorem BlockEffect.writeBytes (s : State) {base : Nat} {bs : List Byte} (l : Label)
    (h : s.stores = (base, bs.length)) :
    BlockEffect s (({ s with mem := s.mem.writeBytes base bs } : State).goto l) :=
  .stored rfl ⟨bs, by simp [h], by rw [h]; rfl⟩

/-- SM3 and SM4 request a rate or do nothing. -/
theorem BlockEffect.baudReq {s u : State} (hu : s.upc ∈ [.sm3, .sm4]) (r : Word) (h : u = s.baudReq r ∨ u = s)
    (l : Label) : BlockEffect s (u.goto l) := by
  rcases h with rfl | rfl
  · exact ⟨.inl rfl, .inl rfl, .inl rfl, .inl ⟨rfl, rfl⟩, .inl rfl, .inr hu, ⟨[r], rfl⟩, ⟨[], Nat.zero_le _, rfl⟩⟩
  · exact .goto _ l

/-- A command's last step judges its counts. -/
theorem BlockEffect.judge (s : State) (c : Prop) [Decidable c] {t : State} (e : ErrCode) (h : BlockEffect s t) :
    BlockEffect s (if c then s.raise e else t) := by
  split
  · exact .complete s _ _
  · exact h

/-! ### Command by command -/

theorem BlockEffect.setModeStep {s t : State} (h : s.setModeStep = .next t) : BlockEffect s t := by
  unfold State.setModeStep at h
  split at h <;> cases h
  · exact .delay _ _ _
  · exact .same rfl
  · next hu => exact .baudReq (by simp [hu]) _ (s.switchToProgBaud_cases.imp (·.2.2) id) _
  · next hu => exact .baudReq (by simp [hu]) _ (s.restoreBaud_cases.imp (·.2.2) id) _
  · exact .delay _ _ _
  · exact .drain _ _
  · exact .busyWait _ _
  · rcases s.recordMode_cases with ⟨-, e⟩ | ⟨l, -, e⟩ <;> rw [e] <;>
      exact .same rfl

theorem BlockEffect.readParams {s t : State} (h : execReadParams s = .next t) : BlockEffect s t := by
  unfold execReadParams at h
  split at h
  case h_9 => exact .setModeStep h
  all_goals cases h
  · next hu => exact .writeBytes s _ (by simp only [State.stores, hu]; rfl)
  · exact .callSetMode _ _ _
  · exact .txWrite _ _ _
  · exact .delay _ _ _
  · next hu => exact .rxRead s _ _ (by simp only [State.stores, hu]; rfl)
  · next hu =>
    exact ⟨.inr (by simp [hu]), .inl rfl, .inl rfl, .inl ⟨rfl, rfl⟩, .inl rfl, .inl ⟨rfl, rfl⟩, ⟨[], by simp⟩,
      ⟨[], Nat.zero_le _, rfl⟩⟩
  · exact .callSetMode _ _ _
  · exact .judge s _ _ (.judge s _ _ (.complete s _ _))

theorem BlockEffect.saveParams {p : Persistence} {s t : State} (h : execSaveParams p s = .next t) :
    BlockEffect s t := by
  unfold execSaveParams at h
  split at h
  case h_9 => exact .setModeStep h
  all_goals cases h
  · next hu => exact .writeBytes s _ (by simp only [State.stores, hu]; rfl)
  · exact .callSetMode _ _ _
  · exact .delay _ _ _
  · exact .txWrite _ _ _
  · exact .waitRx s _ fun _ => .goto s _
  · next hu => exact .rxRead s _ _ (by simp only [State.stores, hu]; rfl)
  · exact .callSetMode _ _ _
  · exact .judge s _ _ (.complete s _ _)

theorem BlockEffect.setCryptKey {key : BitVec 16} {s t : State} (h : execSetCryptKey key s = .next t) :
    BlockEffect s t := by
  unfold execSetCryptKey at h
  split at h
  case h_8 => exact .setModeStep h
  all_goals cases h
  · next hu => exact .writeBytes s _ (by simp only [State.stores, hu]; rfl)
  · exact .callSetMode _ _ _
  · exact .delay _ _ _
  · exact .txWrite _ _ _
  · next hu => exact .rxRead s _ _ (by simp only [State.stores, hu]; rfl)
  · exact .callSetMode _ _ _
  · exact .judge s _ _ (.complete s _ _)

theorem BlockEffect.send {n : BitVec 16} {s t : State} (h : execSend n s = .next t) : BlockEffect s t := by
  unfold execSend at h
  split at h <;> cases h
  · exact .txWrite _ _ _
  · exact .busyWait _ _
  · exact .judge s _ _ (.complete s _ _)

/-- DR4 writes RSSI_RX and RSSI_VALID together (R232). -/
theorem BlockEffect.rssiTake {s t : State} {l : Label} (hu : s.upc = .dr4) (h : s.rssiTake l = .next t) :
    BlockEffect s t := by
  unfold State.rssiTake at h
  split at h
  · split at h <;> cases h
    exact ⟨.inl rfl, .inl rfl, .inr hu, .inl ⟨rfl, rfl⟩, .inr (by simp [hu]), .inl ⟨rfl, rfl⟩, ⟨[], by simp⟩,
      ⟨[], Nat.zero_le _, rfl⟩⟩
  · cases h
    exact .goto s l

theorem BlockEffect.receive {n : BitVec 16} {s t : State} (h : execReceive n s = .next t) : BlockEffect s t := by
  unfold execReceive at h
  split at h
  case h_4 hu => exact .rssiTake hu h
  all_goals cases h
  · next hu =>
    exact ⟨.inl rfl, .inl rfl, .inl rfl, .inl ⟨rfl, rfl⟩, .inr (by simp [hu]), .inl ⟨rfl, rfl⟩, ⟨[], by simp⟩,
      ⟨[], Nat.zero_le _, rfl⟩⟩
  · next hu => exact .rxRead s _ _ (by simp only [State.stores, hu]; rfl)
  · unfold State.rssiPoll
    split
    · exact .waitRx s _ fun _ => .same rfl
    · exact .same rfl
  · exact .busyWait _ _
  · exact .judge s _ _ (.complete s _ _)

theorem BlockEffect.queryRssi {s t : State} (h : execQueryRssi s = .next t) : BlockEffect s t := by
  unfold execQueryRssi at h
  split at h <;> cases h
  · exact .judge s _ _ (.goto s _)
  · next hu => exact .writeBytes s _ (by simp only [State.stores, hu]; rfl)
  · exact .txWrite _ _ _
  · exact .delay _ _ _
  · next hu => exact .rxRead s _ _ (by simp only [State.stores, hu]; rfl)
  · next hu =>
    refine .judge s _ _ ⟨.inl rfl, .inl rfl, .inl rfl, .inr hu, .inl rfl, .inl ⟨rfl, rfl⟩, ⟨[], by simp⟩,
      ⟨[], Nat.zero_le _, rfl⟩⟩

/-- What the block's step writes, whichever command runs. -/
theorem BlockEffect.exec {i : Instr} {s t : State} (h : exec i s = .next t) : BlockEffect s t := by
  cases i with
  | setMode mc => exact .setModeStep h
  | setField f v | getField f | loadReg r b | noiseDbm raw =>
    simp only [Machine.exec, execSetField, execGetField, execLoadReg, execNoiseDbm] at h
    split at h <;> cases h
    next hu =>
      constructor
      case baudlog => exact ⟨[], by simp⟩
      case mem => exact ⟨[], Nat.zero_le _, rfl⟩
      all_goals simp [hu]
  | readParams => exact .readParams h
  | saveParams p => exact .saveParams h
  | setCryptKey key => exact .setCryptKey h
  | send n => exact .send h
  | receive n => exact .receive h
  | queryRssi => exact .queryRssi h

/-- A step that stores nothing leaves memory as it is. -/
theorem BlockEffect.mem_eq {s t : State} (h : BlockEffect s t) (h0 : s.stores.2 = 0) : t.mem = s.mem := by
  obtain ⟨bs, hl, e⟩ := h.mem
  obtain rfl : bs = [] := by simpa [h0] using hl
  exact e

/-- The steps that store something (R94, R99, R210, R214, R233). -/
theorem State.mem_of_stores {s : State} (h : s.stores.2 ≠ 0) :
    s.upc ∈ [.rp1, .rp5, .sp1, .sp6, .ck1, .ck5, .dr2, .qr2, .qr5] := by
  revert h
  unfold State.stores
  cases s.upc <;> simp

/-! ### Memory -/

theorem State.writePayloadByte_wf {s : State} (h : s.mem.Wf) (a : Nat) (b : Byte) :
    (s.writePayloadByte a b).mem.Wf := by
  unfold State.writePayloadByte
  split
  · exact Memory.wf_write h a b
  · exact h

theorem State.access_wf {s : State} (h : s.mem.Wf) (x : Access) : (s.access x).mem.Wf := by
  rcases s.access_any x with ⟨b, e⟩ | ⟨v, -, e⟩ | e | ⟨a, v, -, -, -, e⟩ | ⟨a, v, -, -, -, e⟩ | ⟨a, v, -, -, -, e⟩ |
    ⟨a, v, -, -, -, e⟩ <;> rw [e]
  case inr.inl =>
    obtain ⟨y, e⟩ := s.accept_any v
    rw [e]
    exact h
  case inr.inr.inr.inr.inr.inr =>
    exact State.writePayloadByte_wf (State.writePayloadByte_wf (State.writePayloadByte_wf
      (State.writePayloadByte_wf h _ _) _ _) _ _) _ _
  all_goals exact h

/-! ### The logs -/

/-- What every step does to the logs and the parameters. -/
structure LogsGrow (s t : State) : Prop where
  par : t.par = s.par
  txlog : ∃ l, t.txlog = s.txlog ++ l
  baudlog : ∃ l, t.baudlog = s.baudlog ++ l
  baudTaken : s.baudTaken ≤ t.baudTaken
  busReads : ∃ l, t.busReads = s.busReads ++ l

/-- A step that changes none of them. -/
theorem LogsGrow.same {s t : State}
    (h : t = { t with
      par := s.par, txlog := s.txlog, baudlog := s.baudlog, baudTaken := s.baudTaken, busReads := s.busReads }) :
    LogsGrow s t :=
  ⟨(congrArg State.par h :), ⟨[], by rw [h]; simp⟩, ⟨[], by rw [h]; simp⟩,
    Nat.le_of_eq (congrArg State.baudTaken h :).symm, ⟨[], by rw [h]; simp⟩⟩

theorem LogsGrow.access (s : State) (x : Access) : LogsGrow s (s.access x) := by
  cases x with
  | read a => exact ⟨rfl, ⟨[], by simp [State.access]⟩, ⟨[], by simp [State.access]⟩, Nat.le_refl _, ⟨_, rfl⟩⟩
  | write a v =>
    change LogsGrow s (s.hostWrite a v)
    rcases s.hostWrite_cases a v with ⟨-, -, e⟩ | ⟨-, e⟩ | ⟨-, -, e⟩ | ⟨-, -, e⟩ | ⟨-, -, e⟩ | ⟨-, -, e⟩ | e <;>
      rw [e]
    case inl =>
      obtain ⟨y, e⟩ := s.accept_any v
      rw [e]
      exact .same rfl
    case inr.inr.inr.inr.inr.inl =>
      obtain ⟨m, e⟩ := s.writePayloadWord_eq (wordAddr a) v
      rw [e]
      exact .same rfl
    all_goals exact .same rfl

theorem LogsGrow.progStep (s : State) : LogsGrow s s.progStep := by
  unfold State.progStep
  split
  · exact .same rfl
  · next x rest _ =>
    have h := LogsGrow.access { s with prog := rest } x
    exact ⟨h.par, h.txlog, h.baudlog, h.baudTaken, h.busReads⟩
  · next rest _ =>
    have h := LogsGrow.access { s with prog := if s.busy then .waitDone :: rest else rest } (.read addrStatus)
    exact ⟨h.par, h.txlog, h.baudlog, h.baudTaken, h.busReads⟩

theorem LogsGrow.blockStep {s t : State} (h : s.blockStep = .next t) : LogsGrow s t := by
  rcases s.blockStep_cases h with ⟨-, rfl⟩ | ⟨-, i, -, hx⟩
  · exact .same rfl
  · have o := SameOutside.exec hx
    exact ⟨o.par, ⟨[], by simp [o.txlog]⟩, (BlockEffect.exec hx).baudlog, Nat.le_of_eq o.baudTaken.symm,
      ⟨[], by simp [o.busReads]⟩⟩

theorem LogsGrow.txAnswer (s : State) (w : BitVec 16) : LogsGrow s (s.txAnswer w) := by
  rcases s.txAnswer_cases w with e | ⟨_, _, -, -, -, e⟩ <;> rw [e]
  · exact .same rfl
  · exact ⟨rfl, ⟨_, rfl⟩, ⟨[], by simp⟩, Nat.le_refl _, ⟨[], by simp⟩⟩

theorem LogsGrow.tick (s : State) : LogsGrow s s.tick := by
  rw [s.tick_eq_setTmr]
  exact .same rfl

theorem LogsGrow.perform {s t : State} {m : Move} (h : s.perform m = .next t) : LogsGrow s t := by
  cases m
  case block => exact .blockStep h
  all_goals cases h
  case access x => exact .access s x
  case prog => exact .progStep s
  case tick => exact .tick s
  case txAnswer w => exact .txAnswer s w
  case takeBaud =>
    rcases s.takeBaud_cases with e | ⟨-, e⟩ <;> rw [e]
    · exact .same rfl
    · exact ⟨rfl, ⟨[], by simp⟩, ⟨[], by simp⟩, Nat.le_succ _, ⟨[], by simp⟩⟩
  all_goals exact .same rfl

/-! ### The writers -/

theorem wordAddr_eq_iff (a : Addr) (w : BitVec 12) : wordAddr a = w.toNat ↔ a &&& 0xFFC#12 = w :=
  ⟨fun h => BitVec.eq_of_toNat_eq h, fun h => congrArg BitVec.toNat h⟩

/-- What a step of another agent than the block writes: CUR_BAUD, AUTOBAUD_EN and PAYLOAD by an idle host write, TXLOG
by an answer. -/
structure OtherEffect (s t : State) : Prop where
  data : t = { t with
    img := s.img, result := s.result, rssiRx := s.rssiRx, noise := s.noise, lastRssi := s.lastRssi,
    rssiValid := s.rssiValid, baudlog := s.baudlog }
  curBaud : t.curBaud = s.curBaud ∨
    (s.busy = false ∧ ∃ a v, s.performs (.write a v) ∧ a &&& 0xFFC#12 = 0x010#12)
  autobaudEn : t.autobaudEn = s.autobaudEn ∨
    (s.busy = false ∧ ∃ a v, s.performs (.write a v) ∧ a &&& 0xFFC#12 = 0x00C#12)
  txlog : t.txlog = s.txlog ∨ (s.answers ∧ s.txpend = true ∧ s.upc ∈ [.rp3, .sp4, .ck4, .ds1, .qr3])
  mem : t.mem = s.mem ∨ (s.busy = false ∧ ∃ a v, s.performs (.write a v) ∧
    inPayloadWindow s.par.payloadMax (wordAddr a) = true)

/-- A step that writes none of it. -/
theorem OtherEffect.same {s t : State}
    (h : t = { t with
      img := s.img, result := s.result, rssiRx := s.rssiRx, noise := s.noise, lastRssi := s.lastRssi,
      rssiValid := s.rssiValid, baudlog := s.baudlog, curBaud := s.curBaud, autobaudEn := s.autobaudEn,
      txlog := s.txlog, mem := s.mem }) : OtherEffect s t :=
  ⟨h.trans (by rw [h]), .inl (congrArg State.curBaud h :), .inl (congrArg State.autobaudEn h :),
    .inl (congrArg State.txlog h :), .inl (congrArg State.mem h :)⟩

/-- A host access writes only what its address names, and only while BUSY = 0 (R84, R85). -/
theorem OtherEffect.access {s : State} {x : Access} (hx : s.performs x) (ag : List Move) (pr : List HostLine) :
    OtherEffect s (({ s with agenda := ag, prog := pr } : State).access x) := by
  rcases State.access_any { s with agenda := ag, prog := pr } x with ⟨b, e⟩ | ⟨v, -, e⟩ | e | ⟨a, v, -, -, -, e⟩ |
    ⟨a, v, rfl, ha, hb, e⟩ | ⟨a, v, rfl, ha, hb, e⟩ | ⟨a, v, rfl, ha, hb, e⟩ <;> rw [e]
  · exact .same rfl
  · obtain ⟨y, e⟩ := State.accept_any { s with agenda := ag, prog := pr } v
    rw [e]
    exact .same rfl
  · exact .same rfl
  · exact .same rfl
  · exact ⟨rfl, .inl rfl, .inr ⟨hb, a, v, hx, (wordAddr_eq_iff a _).1 ha⟩, .inl rfl, .inl rfl⟩
  · exact ⟨rfl, .inr ⟨hb, a, v, hx, (wordAddr_eq_iff a _).1 ha⟩, .inl rfl, .inl rfl, .inl rfl⟩
  · obtain ⟨m, e⟩ := State.writePayloadWord_eq { s with agenda := ag, prog := pr } (wordAddr a) v
    rw [e]
    exact ⟨rfl, .inl rfl, .inl rfl, .inl rfl, .inr ⟨hb, a, v, hx, ha⟩⟩

/-- Every step but a reset is the block's, with the block's writes, or another agent's, with theirs. -/
theorem step_writes {s t : State} (h : step s = .next t) (hr : ¬ ∃ d rest, s.agenda = .reset d :: rest) :
    (s.blockSteps ∧ BlockEffect s t ∧ t.autobaudEn = s.autobaudEn ∧ t.txlog = s.txlog) ∨ OtherEffect s t := by
  cases step_stepCase h with
  | block u t i hs hu _ _ hx =>
    have e := BlockEffect.exec hx
    have o := SameOutside.exec hx
    rcases hu with rfl | ⟨rest, rfl⟩
    · exact .inl ⟨hs, e, o.autobaudEn, o.txlog⟩
    · exact .inl ⟨hs, ⟨e.img, e.result, e.rssiRx, e.samples, e.rssiValid, e.baud, e.baudlog, e.mem⟩, o.autobaudEn,
        o.txlog⟩
  | access u t x hx hu ht =>
    obtain ⟨a, p, rfl⟩ := hu
    exact .inr (ht ▸ .access hx a p)
  | poll a p b => exact .inr (.same rfl)
  | reset rest d ha => exact absurd ⟨d, rest, ha⟩ hr
  | tick u t hu ht =>
    rw [ht, u.tick_eq_setTmr]
    rcases hu with rfl | ⟨rest, rfl⟩ <;> exact .inr (.same rfl)
  | env rest q l hq => exact .inr (.same rfl)
  | tx u t w dr hs hu ht =>
    right
    rw [ht]
    rcases u.txAnswer_cases w with e | ⟨base, n, hw, hp, -, e⟩ <;> rw [e]
    · rcases hu with rfl | ⟨rest, rfl⟩ <;> exact .same rfl
    · have hl := State.sends_of_primAt hp
      rcases hu with rfl | ⟨rest, rfl⟩ <;>
        exact ⟨rfl, .inl rfl, .inl rfl, .inr ⟨hs, hw, of_decide_eq_true hl⟩, .inl rfl⟩
  | baud rest t ht =>
    right
    rcases State.takeBaud_cases { s with agenda := rest } with e | ⟨-, e⟩ <;> rw [ht, e] <;> exact .same rfl

end Sys2Proof.Machine

open Sys2Proof Sys2Proof.Machine

/-- Settles O31: a command's step writes bytes within its range, and a read elsewhere does not see them. -/
theorem memoryFrameOfCommands : Obligations.MemoryFrameOfCommands := by
  intro i s t hm h a ha
  obtain ⟨bs, hl, e⟩ := (BlockEffect.exec h).mem
  rw [e, Memory.read_writeBytes hm, if_neg (by omega)]

/-- Settles O27: memory is only ever written byte by byte, or drawn by a reset. -/
theorem everyStepKeepsMemoryForm : Obligations.EveryStepKeepsMemoryForm := by
  intro s t hm h
  cases step_stepCase h with
  | block u t i _ hu _ _ hx =>
    obtain ⟨bs, -, e⟩ := (BlockEffect.exec hx).mem
    rw [e]
    refine Memory.wf_writeBytes ?_ _ bs
    rcases hu with rfl | ⟨rest, rfl⟩ <;> exact hm
  | access u t x _ hu ht =>
    obtain ⟨a, p, rfl⟩ := hu
    exact ht ▸ State.access_wf (s := { s with agenda := a, prog := p }) hm x
  | poll a p b => exact hm
  | reset rest d => exact Memory.wf_ofDraw _ _
  | tick u t hu ht =>
    rw [ht, u.tick_eq_setTmr]
    rcases hu with rfl | ⟨rest, rfl⟩ <;> exact hm
  | env rest q l hq => exact hm
  | tx u t w dr _ hu ht =>
    have hu : u.mem.Wf := by rcases hu with rfl | ⟨rest, rfl⟩ <;> exact hm
    rcases u.txAnswer_cases w with e | ⟨_, _, -, -, -, e⟩ <;> rw [ht, e] <;> exact hu
  | baud rest t ht =>
    rcases State.takeBaud_cases { s with agenda := rest } with e | ⟨-, e⟩ <;> rw [ht, e] <;> exact hm

/-- Settles O28: each agent's step appends to the logs or leaves them. -/
theorem logsOnlyGrow : Obligations.LogsOnlyGrow := by
  intro s t h
  have g : LogsGrow s t := by
    rcases step_cases h with ⟨m, rest, -, hm⟩ | ⟨-, ⟨-, hb⟩ | ⟨-, -, rfl⟩ | ⟨-, -, -, rfl⟩ | ⟨-, -, -, rfl⟩⟩
    · have g := LogsGrow.perform hm
      exact ⟨g.par, g.txlog, g.baudlog, g.baudTaken, g.busReads⟩
    · exact .blockStep hb
    · have g := LogsGrow.txAnswer s s.freeAnswer
      exact ⟨g.par, g.txlog, g.baudlog, g.baudTaken, g.busReads⟩
    · exact .progStep s
    · exact .tick s
  exact ⟨g.par, g.txlog, g.baudlog, g.baudTaken, g.busReads⟩

/-- Settles O30: a step is the block's, which writes at the labels named, or another agent's. -/
theorem onlyTheNamedWriters : Obligations.OnlyTheNamedWriters := by
  intro s t h hr
  rcases step_writes h hr with ⟨hs, e, ha, hx⟩ | e
  · refine ⟨fun hne => ⟨hs, e.img.resolve_left hne⟩, fun hne => ⟨hs, e.result.resolve_left hne⟩,
      fun hne => ⟨hs, e.rssiRx.resolve_left hne⟩, fun hne => ⟨hs, e.samples.resolve_left ?_⟩,
      fun hne => ⟨hs, e.rssiValid.resolve_left hne⟩, fun hne => .inl ⟨hs, e.baud.resolve_left fun b => hne b.1⟩,
      fun hne => absurd ha hne, fun hne => ⟨hs, e.baud.resolve_left fun b => hne b.2⟩, fun hne => absurd hx hne,
      fun hne => .inl ⟨hs, State.mem_of_stores fun h0 => hne (e.mem_eq h0)⟩⟩
    exact fun ⟨h1, h2⟩ => hne.elim (absurd h1) (absurd h2)
  · refine ⟨fun hne => absurd (congrArg State.img e.data :) hne,
      fun hne => absurd (congrArg State.result e.data :) hne, fun hne => absurd (congrArg State.rssiRx e.data :) hne, fun hne => ?_,
      fun hne => absurd (congrArg State.rssiValid e.data :) hne, fun hne => .inr (e.curBaud.resolve_left hne),
      fun hne => e.autobaudEn.resolve_left hne, fun hne => absurd (congrArg State.baudlog e.data :) hne,
      fun hne => e.txlog.resolve_left hne, fun hne => .inr ?_⟩
    · exact hne.elim (absurd (congrArg State.noise e.data :)) (absurd (congrArg State.lastRssi e.data :))
    · obtain ⟨hb, a, v, hx, hw⟩ := e.mem.resolve_left hne
      exact ⟨hb, a, v, hx, (inPayloadWindow_iff _ _).1 hw⟩

end

section
/-! The register map as the host sees it (20_memory.md R82 to R87, 10_state.md R38 to R45): words as sums of their
fields, buffer windows, and the control registers. -/

namespace Sys2Proof.Machine

/-! ### Words as sums -/

/-- Concatenation is positional. -/
theorem toNat_append_eq_add {n m : Nat} (x : BitVec n) (y : BitVec m) :
    (x ++ y).toNat = 2 ^ m * x.toNat + y.toNat := by
  rw [BitVec.toNat_append, Nat.shiftLeft_eq, Nat.mul_comm, Nat.two_pow_add_eq_or_of_lt y.isLt]

@[simp] theorem toNat_bit (b : Bool) : (bit b).toNat = b.toNat := by cases b <;> rfl

/-- STATUS (R40). -/
theorem State.statusWord_toNat (s : State) :
    s.statusWord.toNat =
      s.busy.toNat + 2 * s.done.toNat + 4 * s.ok.toNat + 8 * s.overrun.toNat + 2 ^ 4 * s.err.toNat +
        2 ^ 8 * s.auxTo.toNat + 2 ^ 9 * s.drainTo.toNat + 2 ^ 10 * s.rssiValid.toNat + 2 ^ 12 * s.lastMode.toNat := by
  unfold State.statusWord
  simp only [toNat_append_eq_add, toNat_bit, BitVec.toNat_zero]
  omega

/-- PINS (R44). -/
theorem State.pinsWord_toNat (s : State) :
    s.pinsWord.toNat =
      s.m0.toNat + 2 * s.m1.toNat + 4 * (if s.par.hasAux then s.aux.toNat else 0) + 8 * s.par.hasAux.toNat := by
  have h : (if s.par.hasAux then s.aux else 0#1).toNat = if s.par.hasAux then s.aux.toNat else 0 := by split <;> rfl
  unfold State.pinsWord
  simp only [toNat_append_eq_add, toNat_bit, BitVec.toNat_zero, h]
  omega

theorem State.samplesWord_toNat (s : State) :
    s.samplesWord.toNat = s.rssiRx.toNat + 2 ^ 8 * s.noise.toNat + 2 ^ 16 * s.lastRssi.toNat := by
  unfold State.samplesWord
  simp only [toNat_append_eq_add, BitVec.toNat_zero]
  omega

theorem State.xferWord_toNat (s : State) : s.xferWord.toNat = s.wcount.toNat + 2 ^ 16 * s.rcount.toNat := by
  unfold State.xferWord
  rw [toNat_append_eq_add, Nat.add_comm]

theorem State.image0_toNat (s : State) :
    s.image0.toNat =
      s.img.addh.toNat + 2 ^ 8 * s.img.addl.toNat + 2 ^ 16 * s.img.pack0.toNat + 2 ^ 24 * s.img.pack1.toNat := by
  unfold State.image0
  simp only [toNat_append_eq_add]
  omega

theorem State.image1_toNat (s : State) :
    s.image1.toNat =
      s.img.channel.toNat + 2 ^ 8 * s.img.pack3.toNat + 2 ^ 16 * (2 ^ 8 * s.img.addh.toNat + s.img.addl.toNat) := by
  unfold State.image1 Image.addr
  simp only [toNat_append_eq_add]
  omega

/-! ### Buffer windows -/

/-- An aligned address is its own word address (R82). -/
theorem wordAddr_of_aligned {a : Addr} (h : a.toNat % 4 = 0) : wordAddr a = a.toNat := by
  have hlt := a.isLt
  obtain ⟨k, hk⟩ : ∃ k, a.toNat = k <<< 2 := ⟨a.toNat / 4, by rw [Nat.shiftLeft_eq]; omega⟩
  rw [Nat.shiftLeft_eq] at hk
  have hmask : (0xFFC#12).toNat = (2 ^ 10 - 1) <<< 2 := by decide
  unfold wordAddr
  rw [BitVec.toNat_and, hmask, hk, ← Nat.shiftLeft_eq, ← Nat.shiftLeft_and_distrib, Nat.and_two_pow_sub_one_eq_mod,
    Nat.mod_eq_of_lt (by omega)]

/-- Above the registers a read returns the four byte lanes of its word (R85, R86). -/
theorem State.hostRead_window (s : State) {a : Addr} (h : 0x028 ≤ wordAddr a) :
    s.hostRead a = s.laneWord (wordAddr a) := by
  unfold State.hostRead
  split
  case h_11 => rfl
  all_goals omega

/-- Byte lane `j` of a window word, lowest lane first (R87). -/
theorem State.laneWord_byte (s : State) (w : Nat) {j : Nat} (hj : j < 4) :
    (s.laneWord w).toNat / 2 ^ (8 * j) % 2 ^ 8 = (s.lane (w + j)).toNat := by
  have h0 := (s.lane w).isLt
  have h1 := (s.lane (w + 1)).isLt
  have h2 := (s.lane (w + 2)).isLt
  have h3 := (s.lane (w + 3)).isLt
  unfold State.laneWord
  simp only [toNat_append_eq_add]
  interval_cases j <;> simp only [Nat.add_zero, Nat.reduceMul, Nat.reducePow] at * <;> omega

/-- Byte i of a window whose buffer bytes are its first `n`. -/
theorem State.hostRead_byte (s : State) {base n i : Nat} (hbase : base % 4 = 0) (hlow : 0x028 ≤ base)
    (hhigh : base + i < 4096) (hn : isBufferByte s.par.payloadMax (base + i) = true ↔ i < n) :
    (s.hostRead (BitVec.ofNat 12 (base + 4 * (i / 4)))).toNat / 2 ^ (8 * (i % 4)) % 2 ^ 8 =
      if i < n then (s.mem.read (base + i)).toNat else 0 := by
  have ha : (BitVec.ofNat 12 (base + 4 * (i / 4))).toNat = base + 4 * (i / 4) := by
    rw [BitVec.toNat_ofNat]
    omega
  have hw := wordAddr_of_aligned (a := BitVec.ofNat 12 (base + 4 * (i / 4))) (by omega)
  rw [s.hostRead_window (by omega), hw, ha, s.laneWord_byte _ (Nat.mod_lt i (by decide)),
    show base + 4 * (i / 4) + i % 4 = base + i by omega]
  unfold State.lane
  by_cases h : i < n
  · rw [if_pos (hn.2 h), if_pos h]
  · rw [if_neg (mt hn.1 h), if_neg h]
    rfl

/-! ### Control registers -/

/-- CTRL holds one bit of what is written to it (R38). -/
theorem ctrlWord_of_bit (v : Word) : (0#31 ++ bit (v.getLsbD 0) : BitVec 32) = v &&& 1#32 := by
  apply BitVec.eq_of_toNat_eq
  rw [toNat_append_eq_add, toNat_bit, BitVec.toNat_and, BitVec.getLsbD, Nat.testBit_zero]
  change _ = v.toNat &&& 1
  rw [Nat.and_one_is_mod]
  rcases Nat.mod_two_eq_zero_or_one v.toNat with h | h <;> simp [h]

end Sys2Proof.Machine

open Sys2Proof Sys2Proof.Machine

/-- Settles O20: each register's word is the sum of its fields at their places. -/
theorem registerWordLayouts : Obligations.RegisterWordLayouts := by
  intro s
  refine ⟨s.statusWord_toNat, rfl, rfl, ?_, rfl, s.samplesWord_toNat, s.xferWord_toNat, s.pinsWord_toNat,
    s.image0_toNat, s.image1_toNat⟩
  change (0#31 ++ bit s.autobaudEn : BitVec 32).toNat = _
  rw [toNat_append_eq_add, toNat_bit, BitVec.toNat_zero, Nat.mul_zero, Nat.zero_add]

/-- Settles O17: a window's bytes are the byte lanes of its aligned words. -/
theorem bufferWindowsRead : Obligations.BufferWindowsRead := by
  refine fun s b i => ⟨fun n hb hi => ?_, fun hmax hi => ?_⟩
  · have hw : (b = 0x040 ∧ n = 9) ∨ (b = 0x050 ∧ n = 6) ∨ (b = 0x058 ∧ n = 5) := by simpa using hb
    exact s.hostRead_byte (by omega) (by omega) (by omega) (by rw [isBufferByte_iff]; omega)
  · exact s.hostRead_byte (by decide) (by decide) (by omega) (by rw [isBufferByte_iff]; omega)

/-- Settles O19: an idle block refuses no write, and CTRL and CUR_BAUD hold what was written. -/
theorem controlRegisterWrites : Obligations.ControlRegisterWrites := by
  intro s v hb
  have hctrl : s.hostWrite 0x00C#12 v = { s with autobaudEn := v.getLsbD 0 } :=
    if_neg (by simp [hb])
  have hbaud : s.hostWrite 0x010#12 v = { s with curBaud := v } :=
    if_neg (by simp [hb])
  exact ⟨hctrl, by rw [hctrl]; exact ctrlWord_of_bit v, hbaud, by rw [hbaud]; rfl⟩

end

section
/-! Without AUX its level is never sampled (10_state.md R36, 60_exceptions.md R260): every operation commutes with a
change of the level. -/

namespace Sys2Proof.Machine

/-- The same state with another AUX level. -/
def State.withAux (s : State) (l : BitVec 1) : State := { s with aux := l }

/-- The same outcome, its next state with another AUX level. -/
def nextWithAux (l : BitVec 1) : Host.Outcome State Fault Refusal → Host.Outcome State Fault Refusal
  | .next t => .next (t.withAux l)
  | .fault x => .fault x
  | .refused r => .refused r

section Aux

variable (l : BitVec 1) (s : State)

theorem State.withAux_ite (c : Prop) [Decidable c] (a b : State) :
    (if c then a else b).withAux l = if c then a.withAux l else b.withAux l :=
  apply_ite (fun u : State => u.withAux l) c a b

/-! ### The block's operations -/

theorem State.delay_withAux (t : Nat) (k : Label) : (s.withAux l).delay t k = (s.delay t k).withAux l := by
  unfold State.delay
  rw [State.withAux_ite]
  rfl

theorem State.waitRx_withAux (t : Nat) {k k' : Bool → State} (h : ∀ b, k' b = (k b).withAux l) :
    (s.withAux l).waitRx t k' = (s.waitRx t k).withAux l := by
  unfold State.waitRx
  rw [State.withAux_ite, State.withAux_ite, h, h]
  rfl

theorem State.drain_withAux (k : Label) : (s.withAux l).drain k = (s.drain k).withAux l := by
  rcases hq : s.rxq with - | ⟨v, q⟩ <;>
    simp only [State.drain, show (s.withAux l).rxq = s.rxq from rfl, hq, State.withAux_ite] <;> rfl

/-- The one operation that could sample AUX. -/
theorem State.busyWait_withAux (h : s.par.hasAux = false) (k : Label) :
    (s.withAux l).busyWait k = (s.busyWait k).withAux l := by
  have hn : ¬ s.par.hasAux = true := by simp [h]
  unfold State.busyWait
  rw [if_neg hn, if_neg (show ¬ (s.withAux l).par.hasAux = true from hn)]
  exact State.delay_withAux l s _ _

theorem State.rxRead_withAux (b n : Nat) (k : Label) :
    (s.withAux l).rxRead b n k = (s.rxRead b n k).withAux l := by
  rcases hq : s.rxq with - | ⟨v, q⟩ <;>
    simp only [State.rxRead, show (s.withAux l).rxq = s.rxq from rfl, hq, State.withAux_ite] <;> rfl

theorem State.txWrite_withAux (n : Nat) (k : Label) : (s.withAux l).txWrite n k = (s.txWrite n k).withAux l := by
  rcases ha : s.txAns with - | w <;>
    simp only [State.txWrite, show (s.withAux l).txAns = s.txAns from rfl, ha, State.withAux_ite] <;> rfl

/-- SM3 and SM4 request a rate or do nothing, and go on. -/
theorem State.baudChange_withAux {u v : State} (c : Prop) [Decidable c] (r : Word) (k : Label)
    (hu : u = if c then s.baudReq r else s)
    (hv : v = if c then (s.withAux l).baudReq r else s.withAux l) : v.goto k = (u.goto k).withAux l := by
  subst hu hv
  split <;> rfl

theorem State.setModeStep_withAux (h : s.par.hasAux = false) :
    (s.withAux l).setModeStep = nextWithAux l s.setModeStep := by
  unfold State.setModeStep
  rw [show (s.withAux l).upc = s.upc from rfl]
  split
  · exact congrArg Host.Outcome.next (State.delay_withAux l s _ _)
  · rfl
  · exact congrArg Host.Outcome.next (State.baudChange_withAux l s _ _ _ rfl rfl)
  · exact congrArg Host.Outcome.next (State.baudChange_withAux l s _ _ _ rfl rfl)
  · exact congrArg Host.Outcome.next (State.delay_withAux l s _ _)
  · exact congrArg Host.Outcome.next (State.drain_withAux l s _)
  · exact congrArg Host.Outcome.next (State.busyWait_withAux l s h _)
  · have hr : s.recordMode.withAux l = (s.withAux l).recordMode := by
      unfold State.recordMode
      rw [show (s.withAux l).ret = s.ret from rfl]
      cases s.ret <;> rfl
    exact congrArg Host.Outcome.next hr.symm
  · rfl

/-- A command's last step judges its counts. -/
theorem State.raiseIf_withAux (c : Prop) [Decidable c] (e : ErrCode) {t t' : State} (h : t' = t.withAux l) :
    (if c then (s.withAux l).raise e else t') = (if c then s.raise e else t).withAux l := by
  subst h
  rw [State.withAux_ite]
  rfl

theorem State.rssiPoll_withAux (k : Label) : (s.withAux l).rssiPoll k = (s.rssiPoll k).withAux l := by
  unfold State.rssiPoll
  rw [State.withAux_ite, ← State.waitRx_withAux l s Config.tRssiPoll fun _ => rfl]
  rfl

theorem State.rssiTake_withAux (k : Label) : (s.withAux l).rssiTake k = nextWithAux l (s.rssiTake k) := by
  rcases hq : s.rxq with - | ⟨v, q⟩ <;>
    simp only [State.rssiTake, show (s.withAux l).rxq = s.rxq from rfl, hq, apply_ite (nextWithAux l)] <;> rfl

/-- The block's step commutes with a change of the level. -/
theorem exec_withAux (h : s.par.hasAux = false) (i : Instr) : exec i (s.withAux l) = nextWithAux l (exec i s) := by
  have hu : (s.withAux l).upc = s.upc := rfl
  have next : ∀ {t t' : State}, t' = t.withAux l → Host.Outcome.next t' = nextWithAux l (.next t) := fun e =>
    congrArg Host.Outcome.next e
  cases i with
  | setMode mc => exact State.setModeStep_withAux l s h
  | setField f v | getField f | loadReg r b | noiseDbm raw =>
    simp only [exec, execSetField, execGetField, execLoadReg, execNoiseDbm]
    rw [hu]
    split <;> rfl
  | readParams =>
    simp only [exec, execReadParams]
    rw [hu]
    split
    · rfl
    · rfl
    · exact next (State.txWrite_withAux l s _ _)
    · exact next (State.delay_withAux l s _ _)
    · exact next (State.rxRead_withAux l s _ _ _)
    · rfl
    · rfl
    · exact next (State.raiseIf_withAux l s _ _ (State.raiseIf_withAux l s _ _ rfl))
    · exact State.setModeStep_withAux l s h
  | saveParams p =>
    simp only [exec, execSaveParams]
    rw [hu]
    split
    · rfl
    · rfl
    · exact next (State.delay_withAux l s _ _)
    · exact next (State.txWrite_withAux l s _ _)
    · exact next (State.waitRx_withAux l s _ fun _ => rfl)
    · exact next (State.rxRead_withAux l s _ _ _)
    · rfl
    · exact next (State.raiseIf_withAux l s _ _ rfl)
    · exact State.setModeStep_withAux l s h
  | setCryptKey key =>
    simp only [exec, execSetCryptKey]
    rw [hu]
    split
    · rfl
    · rfl
    · exact next (State.delay_withAux l s _ _)
    · exact next (State.txWrite_withAux l s _ _)
    · exact next (State.rxRead_withAux l s _ _ _)
    · rfl
    · exact next (State.raiseIf_withAux l s _ _ rfl)
    · exact State.setModeStep_withAux l s h
  | send n =>
    simp only [exec, execSend]
    rw [hu]
    split
    · exact next (State.txWrite_withAux l s _ _)
    · exact next (State.busyWait_withAux l s h _)
    · exact next (State.raiseIf_withAux l s _ _ rfl)
    · rfl
  | receive n =>
    simp only [exec, execReceive]
    rw [hu]
    split
    · rfl
    · exact next (State.rxRead_withAux l s _ _ _)
    · exact next (State.rssiPoll_withAux l s _)
    · exact State.rssiTake_withAux l s _
    · exact next (State.busyWait_withAux l s h _)
    · exact next (State.raiseIf_withAux l s _ _ rfl)
    · rfl
  | queryRssi =>
    simp only [exec, execQueryRssi]
    rw [hu]
    split
    · exact next (State.raiseIf_withAux l s _ _ rfl)
    · rfl
    · exact next (State.txWrite_withAux l s _ _)
    · exact next (State.delay_withAux l s _ _)
    · exact next (State.rxRead_withAux l s _ _ _)
    · exact next (State.raiseIf_withAux l s _ _ rfl)
    · rfl

/-- Nor does the level decide whether the block is enabled. -/
theorem State.blockEnabled_withAux (h : s.par.hasAux = false) : (s.withAux l).blockEnabled = s.blockEnabled := by
  unfold State.blockEnabled
  rw [show (s.withAux l).primAt (s.withAux l).upc = s.primAt s.upc from rfl,
    show (s.withAux l).par.hasAux = s.par.hasAux from rfl, h]
  rfl

/-! ### The other agents' operations -/

theorem State.hostRead_withAux (h : s.par.hasAux = false) (a : Addr) : (s.withAux l).hostRead a = s.hostRead a := by
  have hp : (s.withAux l).pinsWord = s.pinsWord := by
    simp [State.pinsWord, State.withAux, h]
  unfold State.hostRead
  rw [hp]
  rfl

theorem State.accept_withAux (v : Word) : (s.withAux l).accept v = (s.accept v).withAux l := by
  unfold State.accept
  rw [show (s.withAux l).par = s.par from rfl]
  rcases decode s.par.payloadMax v with e | i
  · rfl
  · cases i <;> rfl

theorem State.writePayloadByte_withAux (a : Nat) (b : Byte) :
    (s.withAux l).writePayloadByte a b = (s.writePayloadByte a b).withAux l := by
  unfold State.writePayloadByte
  rw [State.withAux_ite]
  rfl

theorem State.writePayloadWord_withAux (w : Nat) (v : Word) :
    (s.withAux l).writePayloadWord w v = (s.writePayloadWord w v).withAux l := by
  simp only [State.writePayloadWord, State.writePayloadByte_withAux]

theorem State.unlessBusy_withAux {t t' : State} (h : t' = t.withAux l) :
    (s.withAux l).unlessBusy t' = (s.unlessBusy t).withAux l := by
  subst h
  unfold State.unlessBusy
  rw [State.withAux_ite]
  rfl

theorem State.hostWrite_withAux (a : Addr) (v : Word) :
    (s.withAux l).hostWrite a v = (s.hostWrite a v).withAux l := by
  unfold State.hostWrite
  split
  · exact State.unlessBusy_withAux l s (State.accept_withAux l s v)
  · rw [State.withAux_ite]
    rfl
  · exact State.unlessBusy_withAux l s rfl
  · exact State.unlessBusy_withAux l s rfl
  · rw [State.withAux_ite, State.unlessBusy_withAux l s (State.writePayloadWord_withAux l s _ v)]
    rfl

theorem State.access_withAux (h : s.par.hasAux = false) (x : Access) :
    (s.withAux l).access x = (s.access x).withAux l := by
  cases x with
  | read a =>
    simp only [State.access, State.hostRead_withAux l s h a]
    rfl
  | write a v => exact State.hostWrite_withAux l s a v

theorem State.progStep_withAux (h : s.par.hasAux = false) : (s.withAux l).progStep = s.progStep.withAux l := by
  unfold State.progStep
  rw [show (s.withAux l).prog = s.prog from rfl]
  split
  · rfl
  · next x rest _ => exact State.access_withAux l { s with prog := rest } h x
  · next rest _ =>
    exact State.access_withAux l { s with prog := if s.busy then .waitDone :: rest else rest } h _

theorem State.tick_withAux : (s.withAux l).tick = s.tick.withAux l := by
  unfold State.tick
  rw [State.withAux_ite]
  rfl

theorem State.txAnswer_withAux (w : BitVec 16) : (s.withAux l).txAnswer w = (s.txAnswer w).withAux l := by
  unfold State.txAnswer
  rw [show (s.withAux l).offered = s.offered from rfl]
  split
  · rw [State.withAux_ite]
    rfl
  · rfl

theorem State.takeBaud_withAux : (s.withAux l).takeBaud = s.takeBaud.withAux l := by
  unfold State.takeBaud
  rw [State.withAux_ite]
  rfl

theorem State.blockStep_withAux (h : s.par.hasAux = false) :
    (s.withAux l).blockStep = nextWithAux l s.blockStep := by
  unfold State.blockStep
  rw [show (s.withAux l).upc = s.upc from rfl, show (s.withAux l).par = s.par from rfl,
    show (s.withAux l).cmdlat = s.cmdlat from rfl]
  split
  · rfl
  · split
    · exact exec_withAux l s h _
    · rfl

/-- Every move but a change of the level itself. -/
theorem State.perform_withAux (h : s.par.hasAux = false) {m : Move} (hm : ∀ k, m ≠ .auxLevel k) :
    (s.withAux l).perform m = nextWithAux l (s.perform m) := by
  cases m with
  | auxLevel k => exact absurd rfl (hm k)
  | access x => exact congrArg Host.Outcome.next (State.access_withAux l s h x)
  | prog => exact congrArg Host.Outcome.next (State.progStep_withAux l s h)
  | block => exact State.blockStep_withAux l s h
  | tick => exact congrArg Host.Outcome.next (State.tick_withAux l s)
  | txAnswer w => exact congrArg Host.Outcome.next (State.txAnswer_withAux l s w)
  | takeBaud => exact congrArg Host.Outcome.next (State.takeBaud_withAux l s)
  | reset d => rfl
  | rxByte b => rfl

/-- The default schedule takes the same step. -/
theorem State.autoStep_withAux (h : s.par.hasAux = false) : (s.withAux l).autoStep = nextWithAux l s.autoStep := by
  unfold State.autoStep
  rw [State.blockEnabled_withAux l s h, State.blockStep_withAux l s h, State.progStep_withAux l s h,
    State.tick_withAux, show (s.withAux l).freeAnswer = s.freeAnswer from rfl, State.txAnswer_withAux]
  simp only [apply_ite (nextWithAux l)]
  rfl

end Aux

end Sys2Proof.Machine

open Sys2Proof Sys2Proof.Machine

/-- Settles O36: every step commutes with a change of the level, but for the move that sets it, which forgets it. -/
theorem absentAuxIsNeverSampled : Obligations.AbsentAuxIsNeverSampled := by
  intro s t l h ht
  unfold step at ht ⊢
  change ∃ l', _ = Host.Outcome.next (t.withAux l')
  rw [show ({ s with aux := l } : State).agenda = s.agenda from rfl]
  split at ht
  · next m rest _ =>
    by_cases hm : ∀ k, m ≠ .auxLevel k
    · exact ⟨l, (State.perform_withAux l { s with agenda := rest } h hm).trans (congrArg (nextWithAux l) ht)⟩
    · obtain ⟨k, rfl⟩ : ∃ k, m = .auxLevel k := by simpa using hm
      obtain rfl : ({ s with agenda := rest, aux := k } : State) = t := by simpa [State.perform] using ht
      exact ⟨k, rfl⟩
  · exact ⟨l, (State.autoStep_withAux l s h).trans (congrArg (nextWithAux l) ht)⟩

end

section
/-! From staging to sending (20_memory.md R94, 42 R210, R214, 43 R233): what a step may do to the staged bytes, and
that every step keeps them. -/

namespace Sys2Proof.Machine

/-! ### The staged steps, by name -/

/-- A command's own steps between staging and TxWrite, the called SET_MODE left aside. -/
def Label.beforeSend (l : Label) : Bool := l ∈ [.rp2, .rp3, .sp2, .sp3, .sp4, .ck2, .ck3, .ck4, .qr3]

theorem State.staged_eq (s : State) :
    s.staged = (s.upc.beforeSend ||
      (s.upc.isSetMode && (s.ret = some .rp3 || s.ret = some .sp3 || s.ret = some .ck3))) := by
  unfold State.staged
  split <;> simp_all [Label.beforeSend, Label.isSetMode]

/-- Between staging and sending nothing is stored, and the image stands still. -/
theorem State.stores_of_staged {s : State} (h : s.staged = true) :
    s.stores.2 = 0 ∧ s.upc ∉ [.sf1, .lr1, .rp6] := by
  revert h
  unfold State.staged State.stores
  cases s.upc <;> simp

/-- Staged bytes stay the wire bytes while the latched command, the image and memory stay the same. -/
theorem State.WireInv.keep {s t : State} (h : s.WireInv)
    (hk : t.staged = true →
      s.staged = true ∧ t.par = s.par ∧ t.cmdlat = s.cmdlat ∧ t.img = s.img ∧ t.mem = s.mem) : t.WireInv := by
  intro hs i hd
  obtain ⟨hs, hp, hc, hi, hm⟩ := hk hs
  have hb : t.wireBytes i = s.wireBytes i := by
    unfold State.wireBytes
    rw [hi, hm]
  rw [hp, hc] at hd
  rw [hb, hm]
  exact h hs i hd

/-! ### The block's steps -/

/-- Nothing is staged by the step: what is staged after it was staged before it. -/
def StagedBefore (s t : State) : Prop := t.staged = true → s.staged = true

theorem StagedBefore.refl (s : State) : StagedBefore s s := id

theorem StagedBefore.of_not {s t : State} (h : t.staged = false) : StagedBefore s t :=
  fun ht => absurd (h.symm.trans ht) (by decide)

theorem StagedBefore.complete (s : State) (ok : Bool) (err : BitVec 4) : StagedBefore s (s.complete ok err) :=
  .of_not rfl

/-- The step at `k` that leads to the one at `l` stages nothing. -/
def Label.stagesNot (k l : Label) : Bool := (!l.beforeSend || k.beforeSend) && (!l.isSetMode || k.isSetMode)

theorem StagedBefore.goto {s : State} {k l : Label} (hu : s.upc = k) (hk : k.stagesNot l = true) :
    StagedBefore s (s.goto l) := by
  subst hu
  unfold StagedBefore
  rw [State.staged_eq, State.staged_eq, State.goto_upc, State.goto_ret]
  unfold Label.stagesNot at hk
  cases hl : l.beforeSend <;> cases hm : l.isSetMode <;> simp_all

/-- A call of SET_MODE behind staging. -/
theorem StagedBefore.of_beforeSend {s t : State} {k : Label} (hu : s.upc = k) (hk : k.beforeSend = true) :
    StagedBefore s t := by
  intro _
  rw [State.staged_eq, hu, hk]
  rfl

section Operations

variable {s : State} {l : Label} (hl : StagedBefore s (s.goto l))
include hl

theorem StagedBefore.delay (t : Nat) : StagedBefore s (s.delay t l) := by
  rcases s.delay_cases t l with ⟨-, e⟩ | ⟨-, e⟩ <;> rw [e]
  · exact hl
  · exact .refl s

theorem StagedBefore.drain : StagedBefore s (s.drain l) := by
  rcases s.drain_cases l with ⟨-, e⟩ | ⟨_, _, -, -, e⟩ | ⟨_, _, -, -, e⟩ <;> rw [e]
  · exact hl
  · exact hl
  · exact .refl s

theorem StagedBefore.busyWait : StagedBefore s (s.busyWait l) := by
  rcases s.busyWait_cases l with e | ⟨-, e⟩ | e <;> rw [e]
  · exact hl
  · exact hl
  · exact .refl s

theorem StagedBefore.rxRead (base n : Nat) : StagedBefore s (s.rxRead base n l) := by
  rcases s.rxRead_cases base n l with e | ⟨_, _, -, -, e⟩ | e <;> rw [e]
  · exact hl
  · exact .refl s
  · exact .refl s

theorem StagedBefore.txWrite (n : Nat) : StagedBefore s (s.txWrite n l) := by
  rcases s.txWrite_cases n l with ⟨-, e⟩ | ⟨-, -, e⟩ | ⟨_, -, -, -, e⟩ | ⟨-, -, -, e⟩ <;> rw [e]
  · exact hl
  · exact .refl s
  · exact hl
  · exact .refl s

end Operations

theorem StagedBefore.waitRx {s : State} {leave : Bool → State} (h : ∀ b, StagedBefore s (leave b)) (t : Nat) :
    StagedBefore s (s.waitRx t leave) := by
  rcases s.waitRx_cases t leave with ⟨-, e⟩ | ⟨-, -, e⟩ | ⟨-, -, e⟩ <;> rw [e]
  · exact h _
  · exact h _
  · exact .refl s

theorem StagedBefore.judge {s t : State} (c : Prop) [Decidable c] (e : ErrCode) (h : StagedBefore s t) :
    StagedBefore s (if c then s.raise e else t) := by
  split
  · exact .complete s _ _
  · exact h

/-- A call of SET_MODE returns behind its session's staging or behind its transfers (R211, R213, R214). -/
def State.ReturnsLegally (s : State) : Prop := ∀ l, s.ret = some l → l ∈ [.rp3, .sp3, .ck3] ∨ l ∈ [.rp8, .sp8, .ck7]

theorem State.Runs.returnsLegally {s : State} {i : Instr} (h : s.Runs i) : s.ReturnsLegally := by
  intro l hl
  unfold State.Runs at h
  split at h
  · rcases h with ⟨_, -, hr, -⟩ | ⟨⟨l₁, l₂⟩, hp, hr⟩
    · simp [hl] at hr
    · obtain ⟨-, -, h₁, h₂⟩ := Instr.returns_labels hp
      rcases hr with ⟨hr, -⟩ | ⟨hr, -⟩ <;> obtain rfl : l = _ := by simpa [hl] using hr
      · exact .inl h₁
      · exact .inr h₂
  · simp [hl] at h

theorem Label.not_staged_of_mem_sessionEnds : ∀ l ∈ [Label.rp8, .sp8, .ck7],
    l.beforeSend = false ∧ l.isSetMode = false := by
  decide

/-- SM8 returns to a staged step only from a call behind staging. -/
theorem StagedBefore.recordMode {s : State} (hu : s.upc = .sm8) (hr : s.ReturnsLegally) :
    StagedBefore s s.recordMode := by
  rcases s.recordMode_cases with ⟨-, e⟩ | ⟨l, hl, e⟩ <;> rw [e]
  · exact .of_not rfl
  · rcases hr l hl with hm | hm
    · intro _
      rw [State.staged_eq, hu, hl]
      simpa [Label.isSetMode, Label.beforeSend, or_assoc] using hm
    · obtain ⟨hb, hs⟩ := Label.not_staged_of_mem_sessionEnds l hm
      refine .of_not ?_
      rw [State.staged_eq, State.goto_upc, hb, hs]
      rfl

theorem StagedBefore.setModeStep {s t : State} (hr : s.ReturnsLegally) (h : s.setModeStep = .next t) :
    StagedBefore s t := by
  unfold State.setModeStep at h
  split at h <;> cases h
  · next hu => exact .delay (.goto hu rfl) _
  · next hu => exact .goto (s := s.pins s.smt) hu rfl
  · next hu =>
    rcases s.switchToProgBaud_cases with ⟨-, -, e⟩ | e <;> rw [e]
    · exact .goto (s := s.baudReq _) hu rfl
    · exact .goto hu rfl
  · next hu =>
    rcases s.restoreBaud_cases with ⟨-, -, e⟩ | e <;> rw [e]
    · exact .goto (s := s.baudReq _) hu rfl
    · exact .goto hu rfl
  · next hu => exact .delay (.goto hu rfl) _
  · next hu => exact .drain (.goto hu rfl)
  · next hu => exact .busyWait (.goto hu rfl)
  · next hu => exact .recordMode hu hr

/-! ### Staging -/

/-- What is staged after the step was staged before it, or holds the wire bytes of the command `i` now. -/
def Stages (i : Instr) (s t : State) : Prop :=
  t.staged = true → s.staged = true ∨ t.mem.bytes i.wireBase (t.wireBytes i).length = t.wireBytes i

theorem StagedBefore.stages {s t : State} (h : StagedBefore s t) (i : Instr) : Stages i s t := fun ht => .inl (h ht)

@[simp] theorem Memory.length_bytes (m : Memory) (base n : Nat) : (m.bytes base n).length = n := by
  simp [Memory.bytes]

/-- What was written is what stands there. -/
theorem Memory.bytes_writeBytes {m : Memory} (h : m.Wf) (base : Nat) {bs : List Byte} {n : Nat} (hn : n ≤ bs.length) :
    (m.writeBytes base bs).bytes base n = bs.take n := by
  apply List.ext_getElem
  · simp [hn]
  · intro k hk _
    rw [Memory.length_bytes] at hk
    simp only [Memory.bytes, List.getElem_map, List.getElem_range, List.getElem_take]
    rw [Memory.read_writeBytes h, if_pos (by omega), Nat.add_sub_cancel_left, List.getD_eq_getElem _ _ (by omega)]

/-- A written command or frame whose first bytes are the wire bytes. -/
theorem Stages.of_writeBytes {i : Instr} {s t : State} {bs : List Byte} (hm : s.mem.Wf)
    (ht : t.mem = s.mem.writeBytes i.wireBase bs) (hw : bs.take (t.wireBytes i).length = t.wireBytes i) :
    Stages i s t := by
  intro _
  have hl : (t.wireBytes i).length ≤ bs.length := by
    rw [← hw, List.length_take]
    omega
  exact .inr (by rw [ht, Memory.bytes_writeBytes hm _ hl, hw])

theorem Stages.readParams {s t : State} (hm : s.mem.Wf) (hr : s.ReturnsLegally) (h : execReadParams s = .next t) :
    Stages .readParams s t := by
  unfold execReadParams at h
  split at h
  case h_9 => exact (StagedBefore.setModeStep hr h).stages _
  all_goals cases h
  · exact .of_writeBytes hm rfl rfl
  all_goals refine StagedBefore.stages ?_ _
  · next hu => exact .of_beforeSend hu rfl
  · next hu => exact .txWrite (.goto hu rfl) _
  · next hu => exact .delay (.goto hu rfl) _
  · next hu => exact .rxRead (.goto hu rfl) _ _
  · next hu => exact .goto (s := s.unpackFrame) hu rfl
  · exact .of_not rfl
  · exact .judge _ _ (.judge _ _ (.complete _ _ _))

theorem Stages.saveParams {p : Persistence} {s t : State} (hm : s.mem.Wf) (hr : s.ReturnsLegally)
    (h : execSaveParams p s = .next t) : Stages (.saveParams p) s t := by
  unfold execSaveParams at h
  split at h
  case h_9 => exact (StagedBefore.setModeStep hr h).stages _
  all_goals cases h
  · cases p <;> exact .of_writeBytes hm rfl rfl
  all_goals refine StagedBefore.stages ?_ _
  · next hu => exact .of_beforeSend hu rfl
  · next hu => exact .delay (.goto hu rfl) _
  · next hu => exact .txWrite (.goto hu rfl) _
  · next hu => exact .waitRx (fun _ => .goto hu rfl) _
  · next hu => exact .rxRead (.goto hu rfl) _ _
  · exact .of_not rfl
  · exact .judge _ _ (.complete _ _ _)

theorem Stages.setCryptKey {key : BitVec 16} {s t : State} (hm : s.mem.Wf) (hr : s.ReturnsLegally)
    (h : execSetCryptKey key s = .next t) : Stages (.setCryptKey key) s t := by
  unfold execSetCryptKey at h
  split at h
  case h_8 => exact (StagedBefore.setModeStep hr h).stages _
  all_goals cases h
  · exact .of_writeBytes hm rfl rfl
  all_goals refine StagedBefore.stages ?_ _
  · next hu => exact .of_beforeSend hu rfl
  · next hu => exact .delay (.goto hu rfl) _
  · next hu => exact .txWrite (.goto hu rfl) _
  · next hu => exact .rxRead (.goto hu rfl) _ _
  · exact .of_not rfl
  · exact .judge _ _ (.complete _ _ _)

theorem Stages.queryRssi {s t : State} (hm : s.mem.Wf) (h : execQueryRssi s = .next t) : Stages .queryRssi s t := by
  unfold execQueryRssi at h
  split at h <;> cases h
  case h_2 => exact .of_writeBytes hm rfl rfl
  all_goals refine StagedBefore.stages ?_ _
  · next hu => exact .judge _ _ (.goto hu rfl)
  · next hu => exact .txWrite (.goto hu rfl) _
  · next hu => exact .delay (.goto hu rfl) _
  · next hu => exact .rxRead (.goto hu rfl) _ _
  · exact .judge _ _ (.of_not rfl)

/-- The data sessions without staging (R231, R232). -/
theorem StagedBefore.send {n : BitVec 16} {s t : State} (h : execSend n s = .next t) : StagedBefore s t := by
  unfold execSend at h
  split at h <;> cases h
  · next hu => exact .txWrite (.goto hu rfl) _
  · next hu => exact .busyWait (.goto hu rfl)
  · exact .judge _ _ (.complete _ _ _)

theorem StagedBefore.receive {n : BitVec 16} {s t : State} (h : execReceive n s = .next t) : StagedBefore s t := by
  unfold execReceive at h
  split at h
  case h_4 hu =>
    unfold State.rssiTake at h
    split at h
    · split at h <;> cases h
      exact .of_not rfl
    · cases h
      exact .of_not rfl
  all_goals cases h
  · exact .of_not rfl
  · next hu => exact .rxRead (.goto hu rfl) _ _
  · unfold State.rssiPoll
    split
    · exact .waitRx (fun _ => .of_not rfl) _
    · exact .of_not rfl
  · next hu => exact .busyWait (.goto hu rfl)
  · exact .judge _ _ (.complete _ _ _)

/-- The block's step stages the running command's wire bytes, or nothing. -/
theorem Stages.exec {i : Instr} {s t : State} (hm : s.mem.Wf) (hr : s.ReturnsLegally) (h : exec i s = .next t) :
    Stages i s t := by
  cases i with
  | setMode mc => exact (StagedBefore.setModeStep hr h).stages _
  | setField f v | getField f | loadReg r b | noiseDbm raw =>
    simp only [Machine.exec, execSetField, execGetField, execLoadReg, execNoiseDbm] at h
    split at h <;> cases h
    exact (StagedBefore.of_not rfl).stages _
  | readParams => exact .readParams hm hr h
  | saveParams p => exact .saveParams hm hr h
  | setCryptKey key => exact .setCryptKey hm hr h
  | send n => exact (StagedBefore.send h).stages _
  | receive n => exact (StagedBefore.receive h).stages _
  | queryRssi => exact .queryRssi hm h

/-! ### Every step -/

/-- The running command's step keeps the staged bytes: it writes them, or writes none of what they depend on. -/
theorem State.WireInv.exec {s t : State} {i : Instr} (h : s.WireInv) (hi : s.Inv) (hu : s.upc ≠ .idle)
    (hd : decode s.par.payloadMax s.cmdlat = .ok i) (hx : exec i s = .next t) : t.WireInv := by
  have o := SameOutside.exec hx
  have e := BlockEffect.exec hx
  intro ht j hj
  rw [o.par, o.cmdlat, hd] at hj
  obtain rfl : i = j := by simpa using hj
  rcases Stages.exec hi.memory.1 (hi.running hu hd).2.returnsLegally hx ht with hs | hb
  · obtain ⟨hstores, hlabel⟩ := s.stores_of_staged hs
    have kept : t.WireInv := h.keep fun _ => ⟨hs, o.par, o.cmdlat, e.img.resolve_right hlabel, e.mem_eq hstores⟩
    exact kept ht i (by rw [o.par, o.cmdlat, hd])
  · exact hb

/-- No command begins with a staged step, or in a call of SET_MODE. -/
theorem State.accept_not_staged (s : State) (v : Word) : (s.accept v).staged = false := by
  rcases s.accept_cases v with ⟨-, -, e⟩ | ⟨i, -, e⟩ <;> rw [e]
  · rfl
  · cases i <;> rfl

/-- A host access stages nothing, and while bytes are staged it writes neither memory nor the image (R84). -/
theorem State.WireInv.access {s : State} (h : s.WireInv) (hi : s.Inv) (x : Access) : (s.access x).WireInv := by
  rcases s.access_any x with ⟨b, e⟩ | ⟨v, -, e⟩ | e | ⟨a, v, -, -, -, e⟩ | ⟨a, v, -, -, -, e⟩ | ⟨a, v, -, -, -, e⟩ |
    ⟨a, v, -, -, hb, e⟩ <;> rw [e]
  case inr.inl =>
    exact fun ht => absurd ((s.accept_not_staged v).symm.trans ht) (by decide)
  case inr.inr.inr.inr.inr.inr =>
    obtain ⟨m, e⟩ := s.writePayloadWord_eq (wordAddr a) v
    intro ht
    rw [e, State.staged_eq] at ht
    simp [hi.idle_iff.2 hb, Label.beforeSend, Label.isSetMode] at ht
  all_goals exact h

theorem State.WireInv.stepCase {s t : State} (h : s.WireInv) (hi : s.Inv) (c : StepCase s t) : t.WireInv := by
  have same : ∀ u : State, (u = s ∨ ∃ rest, u = { s with agenda := rest }) → u.WireInv ∧ u.Inv := by
    rintro u (rfl | ⟨rest, rfl⟩)
    · exact ⟨h, hi⟩
    · exact ⟨h, hi.unread ..⟩
  cases c with
  | block u t i _ hu hn hd hx =>
    have hui : u.upc ≠ .idle ∧ decode u.par.payloadMax u.cmdlat = .ok i := by
      rcases hu with rfl | ⟨rest, rfl⟩ <;> exact ⟨hn, hd⟩
    obtain ⟨hw, hi⟩ := same u hu
    exact hw.exec hi hui.1 hui.2 hx
  | access u t x _ hu ht =>
    obtain ⟨a, p, rfl⟩ := hu
    exact ht ▸ State.WireInv.access (s := { s with agenda := a, prog := p }) h (hi.unread ..) x
  | poll a p b => exact h
  | reset rest d => exact nofun
  | tick u t hu ht =>
    rw [ht, u.tick_eq_setTmr]
    exact (same u hu).1
  | env rest q l hq => exact h
  | tx u t w dr _ hu ht =>
    rcases u.txAnswer_cases w with e | ⟨_, _, -, -, -, e⟩ <;> rw [ht, e] <;> exact (same u hu).1
  | baud rest t ht =>
    rcases State.takeBaud_cases { s with agenda := rest } with e | ⟨-, e⟩ <;> rw [ht, e] <;> exact h

end Sys2Proof.Machine

open Sys2Proof Sys2Proof.Machine

/-- Settles O26: the staging step writes the wire bytes, and no step till the TxWrite touches what they depend on. -/
theorem everyStepKeepsStagedBytes : Obligations.EveryStepKeepsStagedBytes :=
  fun _ _ hi h ht => h.stepCase hi (step_stepCase ht)
end

section
/-! Host accesses (20_memory.md R81 to R87, R90, R91, 33 R147): which step performs one, what it leaves alone, the
addresses that hit nothing, and the PAYLOAD window's word writes. -/

namespace Sys2Proof.Machine

/-! ### One access per step -/

theorem State.progStep_access {s : State} {x : Access} {lines : List HostLine} (h : s.prog = .access x :: lines) :
    s.progStep = ({ s with prog := lines } : State).access x := by
  simp [State.progStep, h]

/-- WAITDONE reads STATUS, and stays while BUSY = 1 (R147). -/
theorem State.progStep_waitDone {s : State} {lines : List HostLine} (h : s.prog = .waitDone :: lines) :
    s.progStep =
      ({ s with prog := if s.busy then .waitDone :: lines else lines } : State).access (.read addrStatus) := by
  simp [State.progStep, h]

/-- What no host access changes. -/
structure OutsideAccess (s t : State) : Prop where
  agenda : t.agenda = s.agenda
  prog : t.prog = s.prog
  rxq : t.rxq = s.rxq
  txlog : t.txlog = s.txlog
  baudlog : t.baudlog = s.baudlog
  upc : s.busy = true → t.upc = s.upc

theorem OutsideAccess.access (s : State) (x : Access) : OutsideAccess s (s.access x) := by
  rcases s.access_any x with ⟨b, e⟩ | ⟨v, hb, e⟩ | e | ⟨a, v, -, -, -, e⟩ | ⟨a, v, -, -, -, e⟩ | ⟨a, v, -, -, -, e⟩ |
    ⟨a, v, -, -, -, e⟩ <;> rw [e]
  case inr.inl =>
    obtain ⟨y, e⟩ := s.accept_any v
    rw [e]
    exact ⟨rfl, rfl, rfl, rfl, rfl, fun h => absurd (hb.symm.trans h) (by decide)⟩
  case inr.inr.inr.inr.inr.inr =>
    obtain ⟨m, e⟩ := s.writePayloadWord_eq (wordAddr a) v
    rw [e]
    exact ⟨rfl, rfl, rfl, rfl, rfl, fun _ => rfl⟩
  all_goals exact ⟨rfl, rfl, rfl, rfl, rfl, fun _ => rfl⟩

/-! ### Word addresses -/

theorem wordAddr_and (a : Addr) : wordAddr (a &&& 0xFFC#12) = wordAddr a := by
  unfold wordAddr
  rw [BitVec.and_assoc, BitVec.and_self]

theorem State.hostRead_congr (s : State) {a b : Addr} (h : wordAddr a = wordAddr b) : s.hostRead a = s.hostRead b := by
  unfold State.hostRead
  rw [h]

theorem State.hostWrite_congr (s : State) {a b : Addr} (h : wordAddr a = wordAddr b) (v : Word) :
    s.hostWrite a v = s.hostWrite b v := by
  unfold State.hostWrite
  rw [h]

/-! ### Accesses that hit nothing -/

/-- A word none of whose lanes is a buffer byte reads 0 (R83). -/
theorem State.laneWord_eq_zero {s : State} {w : Nat}
    (h : ∀ j < 4, isBufferByte s.par.payloadMax (w + j) = false) : s.laneWord w = 0#32 := by
  have lane : ∀ j < 4, s.lane (w + j) = 0#8 := fun j hj => by
    unfold State.lane
    rw [h j hj]
    rfl
  unfold State.laneWord
  rw [lane 3 (by decide), lane 2 (by decide), lane 1 (by decide), show s.lane w = 0#8 from lane 0 (by decide)]
  rfl

/-- An aligned word of no buffer window holds no buffer byte (R85, R86). -/
theorem isBufferByte_of_unmapped {pm w j : Nat} (hw : w % 4 = 0) (hj : j < 4)
    (hbuf : w ∉ [0x040, 0x044, 0x048, 0x050, 0x054, 0x058, 0x05C])
    (hpay : ¬ (0x100 ≤ w ∧ w < 0x100 + 4 * ((pm + 3) / 4))) : isBufferByte pm (w + j) = false := by
  rw [Bool.eq_false_iff, ne_eq, isBufferByte_iff]
  simp only [List.mem_cons, List.not_mem_nil, or_false, not_or] at hbuf
  omega

/-- The registers stand below the windows, at words that the map names (R85). -/
theorem State.hostRead_unmapped {s : State} {a : Addr}
    (hreg : wordAddr a ∉ [0x000, 0x004, 0x008, 0x00C, 0x010, 0x014, 0x018, 0x01C, 0x020, 0x024])
    (h : ∀ j < 4, isBufferByte s.par.payloadMax (wordAddr a + j) = false) : s.hostRead a = 0#32 := by
  have hw := wordAddr_mod a
  simp only [List.mem_cons, List.not_mem_nil, or_false, not_or] at hreg
  rw [s.hostRead_window (by omega), State.laneWord_eq_zero h]

/-- A write outside the four writable targets has no effect (R83). -/
theorem State.hostWrite_unmapped {s : State} {a : Addr} (hreg : wordAddr a ∉ [0x000, 0x004, 0x00C, 0x010])
    (hpay : inPayloadWindow s.par.payloadMax (wordAddr a) = false) (v : Word) : s.hostWrite a v = s := by
  simp only [List.mem_cons, List.not_mem_nil, or_false, not_or] at hreg
  obtain ⟨h0, h4, hC, h10⟩ := hreg
  unfold State.hostWrite
  split
  case h_5 => rw [hpay]; rfl
  all_goals contradiction

/-! ### Bits that read 0 -/

/-- STATUS (R40): bits 31:15 and 11. -/
theorem State.statusWord_reserved (s : State) : s.statusWord &&& 0xFFFF8800#32 = 0#32 := by
  unfold State.statusWord
  rw [show 0xFFFF8800#32 = (0x1FFFF#17 ++ 0#3 ++ 1#1 ++ 0#1 ++ 0#1 ++ 0#1 ++ 0#4 ++ 0#1 ++ 0#1 ++ 0#1 ++ 0#1 :
    BitVec 32) from rfl]
  rw [BitVec.and_append]
  simp only [BitVec.and_append, BitVec.and_zero, BitVec.zero_and]
  rfl

/-- SAMPLES (R42): bits 31:24. -/
theorem State.samplesWord_reserved (s : State) : s.samplesWord &&& 0xFF000000#32 = 0#32 := by
  unfold State.samplesWord
  rw [show 0xFF000000#32 = (0xFF#8 ++ 0#8 ++ 0#8 ++ 0#8 : BitVec 32) from rfl]
  rw [BitVec.and_append]
  simp only [BitVec.and_append, BitVec.and_zero, BitVec.zero_and]
  rfl

/-- PINS (R44): bits 31:4. -/
theorem State.pinsWord_reserved (s : State) : s.pinsWord &&& 0xFFFFFFF0#32 = 0#32 := by
  unfold State.pinsWord
  rw [show 0xFFFFFFF0#32 = (0xFFFFFFF#28 ++ 0#1 ++ 0#1 ++ 0#1 ++ 0#1 : BitVec 32) from rfl]
  rw [BitVec.and_append]
  simp only [BitVec.and_append, BitVec.and_zero, BitVec.zero_and]
  rfl

/-- CTRL (R38): bits 31:1. -/
theorem ctrlWord_reserved (b : Bool) : (0#31 ++ bit b : BitVec 32) &&& 0xFFFFFFFE#32 = 0#32 := by
  cases b <;> rfl

/-! ### PAYLOAD word writes -/

/-- A PAYLOAD byte write is read back at its address, where that is a PAYLOAD byte (R86). -/
theorem State.writePayloadByte_read {s : State} (h : s.mem.Wf) (a x : Nat) (b : Byte) :
    (s.writePayloadByte a b).mem.read x =
      if a = x ∧ isPayloadByte s.par.payloadMax x = true then b else s.mem.read x := by
  unfold State.writePayloadByte
  split
  · next ha =>
    change (s.mem.write a b).read x = _
    rw [Memory.read_write s.mem h]
    exact if_congr ⟨fun e => ⟨e, e ▸ ha⟩, And.left⟩ rfl rfl
  · next ha => rw [if_neg (by rintro ⟨rfl, hx⟩; exact ha hx)]

@[simp] theorem State.writePayloadByte_par (s : State) (a : Nat) (b : Byte) :
    (s.writePayloadByte a b).par = s.par := by
  unfold State.writePayloadByte
  split <;> rfl

/-- A PAYLOAD word write stores its four lanes, lowest byte first, and no other byte (R86, R87). -/
theorem State.writePayloadWord_read {s : State} (h : s.mem.Wf) (w x : Nat) (v : Word) :
    (s.writePayloadWord w v).mem.read x =
      if w ≤ x ∧ x < w + 4 ∧ isPayloadByte s.par.payloadMax x = true then laneOf v (x - w) else s.mem.read x := by
  have h0 := State.writePayloadByte_wf h w (laneOf v 0)
  have h1 := State.writePayloadByte_wf h0 (w + 1) (laneOf v 1)
  have h2 := State.writePayloadByte_wf h1 (w + 2) (laneOf v 2)
  unfold State.writePayloadWord
  rw [State.writePayloadByte_read h2, State.writePayloadByte_read h1, State.writePayloadByte_read h0,
    State.writePayloadByte_read h]
  simp only [State.writePayloadByte_par]
  by_cases hx : isPayloadByte s.par.payloadMax x = true
  · by_cases hw : w ≤ x ∧ x < w + 4
    · obtain ⟨j, rfl⟩ : ∃ j, x = w + j := ⟨x - w, by omega⟩
      have hj : j < 4 := by omega
      interval_cases j <;> simp [hx]
    · rw [if_neg (by omega), if_neg (by omega), if_neg (by omega), if_neg (by omega), if_neg (by omega)]
  · simp [hx]

theorem laneOf_toNat (v : Word) (j : Nat) : (laneOf v j).toNat = v.toNat / 2 ^ (8 * j) % 2 ^ 8 := by
  unfold laneOf
  rw [BitVec.extractLsb'_toNat, Nat.shiftRight_eq_div_pow]

/-- An idle write to a word of the PAYLOAD window (R85). -/
theorem State.hostWrite_payload {s : State} {a : Addr} (hb : s.busy = false)
    (hw : inPayloadWindow s.par.payloadMax (wordAddr a) = true) (v : Word) :
    s.hostWrite a v = s.writePayloadWord (wordAddr a) v := by
  have hlow := ((inPayloadWindow_iff _ _).1 hw).1
  unfold State.hostWrite
  split
  case h_5 =>
    rw [if_pos hw]
    unfold State.unlessBusy
    rw [hb]
    rfl
  all_goals omega

end Sys2Proof.Machine

open Sys2Proof Sys2Proof.Machine

/-- Settles O16: what the register map does not name has no buffer byte and no writable target. -/
theorem accessesThatHitNothing : Obligations.AccessesThatHitNothing := by
  refine ⟨fun s a hw hp => ?_, fun s a v hw hp => ?_, fun s v => ⟨s.statusWord_reserved, ctrlWord_reserved _,
    s.samplesWord_reserved, s.pinsWord_reserved, rfl, ?_⟩⟩
  · have hmap : wordAddr a ∉ [0x000, 0x004, 0x008, 0x00C, 0x010, 0x014, 0x018, 0x01C, 0x020, 0x024] ++
        [0x040, 0x044, 0x048, 0x050, 0x054, 0x058, 0x05C] := hw
    obtain ⟨hreg, hbuf⟩ := not_or.1 (mt List.mem_append.2 hmap)
    exact State.hostRead_unmapped hreg fun j hj => isBufferByte_of_unmapped (wordAddr_mod a) hj hbuf hp
  · exact State.hostWrite_unmapped hw (Bool.eq_false_iff.2 (mt (inPayloadWindow_iff _ _).1 hp)) v
  · have hbit : (v &&& 1#32).getLsbD 0 = v.getLsbD 0 := by simp
    change s.unlessBusy { s with autobaudEn := v.getLsbD 0 } =
      s.unlessBusy { s with autobaudEn := (v &&& 1#32).getLsbD 0 }
    rw [hbit]

/-- Settles O18: the word's lanes are written byte by byte, where they are PAYLOAD bytes. -/
theorem payloadWordWrite : Obligations.PayloadWordWrite := by
  intro s k v hm hb hmax hk
  have ha : (BitVec.ofNat 12 (0x100 + 4 * k)).toNat = 0x100 + 4 * k :=
    (BitVec.toNat_ofNat _ _).trans (Nat.mod_eq_of_lt (by omega))
  have hword : wordAddr (BitVec.ofNat 12 (0x100 + 4 * k)) = 0x100 + 4 * k :=
    (wordAddr_of_aligned (by omega)).trans ha
  have hwrite := State.hostWrite_payload hb (a := BitVec.ofNat 12 (0x100 + 4 * k))
    (by rw [hword, inPayloadWindow_iff]; omega) v
  rw [hword] at hwrite
  obtain ⟨m, e⟩ := s.writePayloadWord_eq (0x100 + 4 * k) v
  have hread := State.writePayloadWord_read hm (0x100 + 4 * k) (v := v)
  simp only [e] at hread
  refine ⟨m, hwrite.trans e, fun j hj hlt => ?_, fun a ha => ?_⟩
  · rw [hread, if_pos (by rw [isPayloadByte_iff]; omega), laneOf_toNat,
      show 0x100 + (4 * k + j) - (0x100 + 4 * k) = j by omega]
  · rw [hread, if_neg (by rw [isPayloadByte_iff]; omega)]

/-- Settles O13: the agenda's head or the program's head is performed, and no access reaches the environment's queue
or the logs. -/
theorem hostAccessIsOneStep : Obligations.HostAccessIsOneStep := by
  refine ⟨fun s rest x h => step_of_agenda_cons h, fun s rest x lines h hp => ?_, fun s rest lines h hp => ?_,
    fun s x => ?_⟩
  · rw [step_of_agenda_cons h]
    exact congrArg Host.Outcome.next (State.progStep_access (s := { s with agenda := rest }) hp)
  · rw [step_of_agenda_cons h]
    exact congrArg Host.Outcome.next (State.progStep_waitDone (s := { s with agenda := rest }) hp)
  · obtain ⟨hagenda, hprog, hrxq, htx, hbaud, hupc⟩ := OutsideAccess.access s x
    exact ⟨hagenda, hprog, hrxq, htx, hbaud, hupc⟩

/-- Settles O14: no register or buffer shows the record of reads. -/
theorem readsHaveNoSideEffect : Obligations.ReadsHaveNoSideEffect :=
  fun _ _ _ => ⟨rfl, rfl⟩

/-- Settles O15: both kinds of access look at the word address only. -/
theorem addressLowBitsIgnored : Obligations.AddressLowBitsIgnored :=
  fun s a v => ⟨s.hostRead_congr (wordAddr_and a).symm, s.hostWrite_congr (wordAddr_and a).symm v⟩
end

section
/-! What is sent (20_memory.md R88, R89, R96, 42 R216, 43 R231, R233): the environment's answer to a pending TxWrite,
and that the bytes it logs are the running command's wire frame. -/

namespace Sys2Proof

theorem Word.data_toNat (w : Word) : (Word.data w).toNat = w.toNat % 2 ^ 16 := by
  simp [Word.data]

/-- Which commands send, and in which mode: the configuration commands in PROGRAM, QUERY_RSSI in NORMAL, SEND in any
(R216, R231, R233). -/
def Instr.sendsIn (mc : BitVec 2) : Instr → Prop
  | .readParams | .saveParams _ | .setCryptKey _ => mc = 3#2
  | .queryRssi => mc = 0#2
  | .send _ => True
  | .setMode _ | .setField _ _ | .getField _ | .loadReg _ _ | .noiseDbm _ | .receive _ => False

end Sys2Proof

namespace Sys2Proof.Machine

/-! ### The answer -/

/-- A pending TxWrite takes an answer of at most its size (R96). -/
theorem State.txAnswer_taken {s : State} {w : BitVec 16} {base n : Nat} (hp : s.txpend = true)
    (hn : s.primAt s.upc = some (.txWrite base n)) (hw : w.toNat ≤ n) :
    s.txAnswer w =
      { s with
        txlog := s.txlog ++ (s.mem.bytes base w.toNat).map (fun b => (b, s.modeCode))
        txpend := false
        txAns := some w } := by
  simp [State.txAnswer, State.offered, hp, hn, hw]

/-- An answer above its size is none (log 2). -/
theorem State.txAnswer_above {s : State} {w : BitVec 16} {base n : Nat}
    (hn : s.primAt s.upc = some (.txWrite base n)) (hw : n < w.toNat) : s.txAnswer w = s := by
  rcases s.txAnswer_cases w with e | ⟨base', n', -, hn', hle, -⟩
  · exact e
  · obtain ⟨-, rfl⟩ : base = base' ∧ n = n' := by simpa using hn.symm.trans hn'
    omega

/-- So is one with no write pending. -/
theorem State.txAnswer_unasked {s : State} (hp : s.txpend = false) (w : BitVec 16) : s.txAnswer w = s := by
  simp [State.txAnswer, State.offered, hp]

/-- The five steps that run a TxWrite, with their buffers and sizes (R96). -/
theorem State.primAt_txWrite_iff {s : State} {l : Label} {base n : Nat} :
    s.primAt l = some (.txWrite base n) ↔
      (l, base, n) ∈ [(.rp3, 0x040, 3), (.sp4, 0x040, 9), (.ck4, 0x050, 5), (.qr3, 0x050, 6),
        (.ds1, 0x100, s.cmdlat.toNat % 2 ^ 16)] := by
  rw [← Word.data_toNat]
  cases l
  case dr3 => by_cases hr : s.img.rssiByteEn = 1#1 <;> simp [State.primAt, hr]
  all_goals simp [State.primAt, frameBase, xbufBase, payloadBase, eq_comm]

/-! ### The wire frame -/

theorem Memory.bytes_take (m : Memory) (base : Nat) {w n : Nat} (h : w ≤ n) :
    (m.bytes base n).take w = m.bytes base w := by
  unfold Memory.bytes
  rw [← List.map_take, List.take_range, Nat.min_eq_left h]

/-- Where the pins show LAST_MODE and it is a mode code, that code is on the pins. -/
theorem State.PinsShow.modeCode_eq {s : State} (h : s.PinsShow) {mc : BitVec 2} (hl : s.lastMode = mc.setWidth 3) :
    s.modeCode = mc := by
  have unset : ∀ mc : BitVec 2, mc.setWidth 3 ≠ 7#3 := by decide
  have inj : ∀ a b : BitVec 2, a.setWidth 3 = b.setWidth 3 → a = b := by decide
  rcases h with ⟨h7, -⟩ | h
  · exact absurd (hl.symm.trans h7) (unset mc)
  · exact inj _ _ (h.symm.trans hl)

/-- Between its two calls of SET_MODE a configuration command has mode code 3 on the pins (R215, R216). -/
theorem State.ModeInv.inProgram_modeCode {s : State} (h : s.ModeInv) (hap : s.upc.afterPins = false)
    (hip : s.upc.inProgram = true) : s.modeCode = 3#2 := by
  have hp := h.pinsShow hap
  obtain ⟨-, hmode, -⟩ := h
  exact hp.modeCode_eq (hmode hip)

/-- Behind its precondition QUERY_RSSI has mode code 0 on the pins (R233). -/
theorem State.ModeInv.queryPassed_modeCode {s : State} (h : s.ModeInv) (hap : s.upc.afterPins = false)
    (hq : s.upc.queryPassed = true) : s.modeCode = 0#2 := by
  have hp := h.pinsShow hap
  obtain ⟨-, -, -, hmode⟩ := h
  exact hp.modeCode_eq (hmode hq).1

theorem Label.plain_of_sends {l : Label} (h : l.sends = true) : l ≠ .idle ∧ l.isSetMode = false := by
  have all : ∀ l ∈ [Label.rp3, .sp4, .ck4, .ds1, .qr3], l ≠ .idle ∧ l.isSetMode = false := by decide
  exact all l (of_decide_eq_true h)

/-- A good state outside SET_MODE is at one of its command's own labels. -/
theorem State.Inv.owner {s : State} (h : s.Inv) (hu : s.upc ≠ .idle) (hs : s.upc.isSetMode = false) :
    ∃ i, decode s.par.payloadMax s.cmdlat = .ok i ∧ i.owns s.upc = true := by
  have hr := h.run
  unfold State.RunInv at hr
  rw [if_neg hu] at hr
  obtain ⟨-, i, hd, hr⟩ := hr
  exact ⟨i, hd, (hr.own hs).2⟩

/-- A TxWrite offers the wire bytes of the command that runs it, in the command's mode (R88, R215, R233). -/
theorem State.Inv.offers_wireBytes {s : State} {base n : Nat} (h : s.Inv) (hw : s.WireInv)
    (hp : s.primAt s.upc = some (.txWrite base n)) :
    ∃ i, s.upc ≠ .idle ∧ decode s.par.payloadMax s.cmdlat = .ok i ∧ s.mem.bytes base n = s.wireBytes i ∧
      i.sendsIn s.modeCode := by
  obtain ⟨hi, hs⟩ := Label.plain_of_sends (State.sends_of_primAt hp)
  obtain ⟨i, hd, ho⟩ := h.owner hi hs
  have program := h.mode.inProgram_modeCode
  have normal := h.mode.queryPassed_modeCode
  have staged : s.upc.beforeSend = true → s.mem.bytes i.wireBase (s.wireBytes i).length = s.wireBytes i :=
    fun hb => hw (by rw [State.staged_eq, hb]; rfl) i hd
  refine ⟨i, hi, hd, ?_⟩
  have hl := State.primAt_txWrite_iff.1 hp
  simp only [List.mem_cons, Prod.mk.injEq, List.not_mem_nil, or_false] at hl
  rcases hl with ⟨hu, rfl, rfl⟩ | ⟨hu, rfl, rfl⟩ | ⟨hu, rfl, rfl⟩ | ⟨hu, rfl, rfl⟩ | ⟨hu, rfl, rfl⟩ <;>
    rw [hu] at ho program normal staged
  · obtain rfl : i = .readParams := by cases i <;> simp [Instr.owns, Label.isSetMode] at ho ⊢
    exact ⟨staged rfl, program rfl rfl⟩
  · obtain ⟨p, rfl⟩ : ∃ p, i = .saveParams p := by cases i <;> simp [Instr.owns, Label.isSetMode] at ho ⊢
    exact ⟨by cases p <;> exact staged rfl, program rfl rfl⟩
  · obtain ⟨key, rfl⟩ : ∃ key, i = .setCryptKey key := by cases i <;> simp [Instr.owns, Label.isSetMode] at ho ⊢
    exact ⟨staged rfl, program rfl rfl⟩
  · obtain rfl : i = .queryRssi := by cases i <;> simp [Instr.owns, Label.isSetMode] at ho ⊢
    exact ⟨staged rfl, normal rfl rfl⟩
  · obtain ⟨m, rfl⟩ : ∃ m, i = .send m := by cases i <;> simp [Instr.owns, Label.isSetMode] at ho ⊢
    obtain ⟨hm, -⟩ := decode_size hd (.inl rfl)
    rw [← Word.data_toNat, hm]
    exact ⟨rfl, trivial⟩

/-- Only the answer to a pending TxWrite extends TXLOG (R54, R96). -/
theorem step_sends {s t : State} (h : step s = .next t) (hne : t.txlog ≠ s.txlog) :
    ∃ base n w, s.primAt s.upc = some (.txWrite base n) ∧ w ≤ n ∧
      t.txlog = s.txlog ++ (s.mem.bytes base w).map (fun b => (b, s.modeCode)) := by
  cases step_stepCase h with
  | block u t i _ hu _ _ hx =>
    refine absurd (SameOutside.exec hx).txlog ?_
    rcases hu with rfl | ⟨rest, rfl⟩ <;> exact hne
  | access u t x _ hu ht =>
    obtain ⟨a, p, rfl⟩ := hu
    exact absurd (ht ▸ (OutsideAccess.access { s with agenda := a, prog := p } x).txlog) hne
  | poll a p b => exact absurd rfl hne
  | reset rest d => exact absurd rfl hne
  | tick u t hu ht =>
    rw [ht, u.tick_eq_setTmr] at hne
    rcases hu with rfl | ⟨rest, rfl⟩ <;> exact absurd rfl hne
  | env rest q l hq => exact absurd rfl hne
  | tx u t w dr _ hu ht =>
    rcases u.txAnswer_cases w with e | ⟨base, n, -, hn, hle, e⟩ <;> rw [ht, e] at hne ⊢ <;>
      rcases hu with rfl | ⟨rest, rfl⟩
    · exact absurd rfl hne
    · exact absurd rfl hne
    · exact ⟨base, n, w.toNat, hn, hle, rfl⟩
    · exact ⟨base, n, w.toNat, hn, hle, rfl⟩
  | baud rest t ht =>
    rcases State.takeBaud_cases { s with agenda := rest } with e | ⟨-, e⟩ <;> rw [ht, e] at hne <;>
      exact absurd rfl hne

end Sys2Proof.Machine

open Sys2Proof Sys2Proof.Machine

/-- Settles O47: the five steps are those that run a TxWrite, and the answer is taken up to their size. -/
theorem txWriteAnswer : Obligations.TxWriteAnswer := by
  intro s rest w l base n ha hl
  have hn := State.primAt_txWrite_iff.2 hl
  rw [step_of_agenda_cons ha]
  refine ⟨fun hu hp hw => congrArg Host.Outcome.next ?_, fun h => congrArg Host.Outcome.next ?_⟩
  · subst hu
    refine (State.txAnswer_taken (s := { s with agenda := rest }) hp hn hw).trans ?_
    simp only [Memory.bytes, List.map_map]
    rfl
  · rcases h with ⟨rfl, hw⟩ | hp
    · exact State.txAnswer_above (s := { s with agenda := rest }) hn hw
    · exact State.txAnswer_unasked (s := { s with agenda := rest }) hp w

/-- Settles O32: an answer logs the first bytes of what the TxWrite offers, and that is the wire frame. -/
theorem sentBytesAreTheWireFrame : Obligations.SentBytesAreTheWireFrame := by
  intro s t h hw ht hne
  obtain ⟨base, n, w, hp, hle, hlog⟩ := step_sends ht hne
  obtain ⟨i, hu, hd, hbytes, hmode⟩ := h.offers_wireBytes hw hp
  refine ⟨i, w, hd, hu, ?_, ?_⟩
  · rw [hlog, ← hbytes, Memory.bytes_take _ _ hle]
    rfl
  · cases i <;> exact hmode
end

section
/-! The block's step holds exactly where it is not enabled (10_state.md R51, 20_memory.md R96, R99, 41 R187 to R190): a
waiting primitive leaves the state as it is until its condition holds, and every other step moves on (R102). -/

namespace Sys2Proof.Machine

/-- The step from `s` to `t` holds exactly where the block has no enabled step. -/
def HoldsUnlessEnabled (s t : State) : Prop := t = s ↔ s.blockEnabled = false

theorem HoldsUnlessEnabled.moves {s t : State} (he : s.blockEnabled = true) (hne : t ≠ s) : HoldsUnlessEnabled s t :=
  iff_of_false hne (by simp [he])

theorem HoldsUnlessEnabled.holds {s : State} (he : s.blockEnabled = false) : HoldsUnlessEnabled s s :=
  iff_of_true rfl he

theorem State.ne_of_upc {s t : State} {k : Label} (hu : s.upc = k) (ht : t.upc ≠ k) : t ≠ s :=
  fun e => ht (e ▸ hu)

/-- A step that runs no waiting primitive is enabled and moves on to another label (R102). -/
theorem HoldsUnlessEnabled.plain {s t : State} {k : Label} (hu : s.upc = k) (hp : s.primAt k = none) (hk : k ≠ .idle)
    (ht : t.upc ≠ k) : HoldsUnlessEnabled s t := by
  refine .moves ?_ (State.ne_of_upc hu ht)
  rw [State.blockEnabled, hu, hp]
  simpa using hk

/-- A last step completes, whatever its outcome. -/
theorem HoldsUnlessEnabled.judge {s t : State} {k : Label} (hu : s.upc = k) (hp : s.primAt k = none) (hk : k ≠ .idle)
    (c : Prop) [Decidable c] (e : ErrCode) (ht : t.upc ≠ k) : HoldsUnlessEnabled s (if c then s.raise e else t) := by
  refine .plain hu hp hk ?_
  split
  · exact hk.symm
  · exact ht

section Primitives

variable {s : State} {k l : Label} {t base n : Nat} (hu : s.upc = k) (hl : l ≠ k)
include hu hl

theorem HoldsUnlessEnabled.delay (hp : s.primAt k = some (.delay t)) : HoldsUnlessEnabled s (s.delay t l) := by
  have he : s.blockEnabled = s.elapsed t := by rw [State.blockEnabled, hu, hp]
  rcases s.delay_cases t l with ⟨ht, e⟩ | ⟨ht, e⟩ <;> rw [e]
  · exact .moves (he.trans ht) (State.ne_of_upc hu hl)
  · exact .holds (he.trans ht)

/-- Drain moves on, or takes a byte of the queue. -/
theorem HoldsUnlessEnabled.drain (hp : s.primAt k = some .drain) : HoldsUnlessEnabled s (s.drain l) := by
  have he : s.blockEnabled = true := by rw [State.blockEnabled, hu, hp]
  refine .moves he ?_
  rcases s.drain_cases l with ⟨-, e⟩ | ⟨_, _, -, -, e⟩ | ⟨b, q, hq, -, e⟩ <;> rw [e]
  · exact State.ne_of_upc hu hl
  · exact State.ne_of_upc hu hl
  · intro h
    have : q = b :: q := (congrArg State.rxq h :).trans hq
    simp at this

theorem HoldsUnlessEnabled.busyWait (hp : s.primAt k = some .busyWait) : HoldsUnlessEnabled s (s.busyWait l) := by
  have he : s.blockEnabled = if s.par.hasAux then decide (s.aux = s.par.auxReadyLevel) || s.elapsed s.par.tAuxTo
      else s.elapsed s.par.tBlind := by rw [State.blockEnabled, hu, hp]
  unfold State.busyWait State.delay
  split
  · next ha =>
    rw [if_pos ha] at he
    split
    · next hr => exact .moves (by simp [he, hr]) (State.ne_of_upc hu hl)
    · next hr =>
      split
      · next ht => exact .moves (by simp [he, ht]) (State.ne_of_upc hu hl)
      · next ht => exact .holds (by simpa [he, hr] using ht)
  · next ha =>
    rw [if_neg ha] at he
    split
    · next ht => exact .moves (he.trans ht) (State.ne_of_upc hu hl)
    · next ht => exact .holds (by simpa [he] using ht)

/-- RxRead moves on, or takes a byte of the queue. -/
theorem HoldsUnlessEnabled.rxRead (hp : s.primAt k = some (.rxRead base n)) :
    HoldsUnlessEnabled s (s.rxRead base n l) := by
  have he : s.blockEnabled = (decide (s.got.toNat = n) || decide (s.rxq ≠ []) || s.elapsed s.par.rxTimeout) := by
    rw [State.blockEnabled, hu, hp]
  unfold State.rxRead
  split
  · next hn => exact .moves (by simp [he, hn]) (State.ne_of_upc hu hl)
  · next hn =>
    split
    · next b q hq =>
      refine .moves (by simp [he, hq]) fun h => ?_
      have : q = b :: q := (congrArg State.rxq h :).trans hq
      simp at this
    · next hq =>
      split
      · next ht => exact .moves (by simp [he, ht]) (State.ne_of_upc hu hl)
      · next ht => exact .holds (by simpa [he, hn, hq] using ht)

/-- TxWrite holds exactly while its offer is pending. -/
theorem HoldsUnlessEnabled.txWrite (hp : s.primAt k = some (.txWrite base n)) :
    HoldsUnlessEnabled s (s.txWrite n l) := by
  have he : s.blockEnabled = (decide (n = 0) || !s.txpend) := by rw [State.blockEnabled, hu, hp]
  rcases s.txWrite_cases n l with ⟨hn, e⟩ | ⟨hn, hw, e⟩ | ⟨_, -, hw, -, e⟩ | ⟨-, hw, -, e⟩ <;> rw [e]
  · exact .moves (by simp [he, hn]) (State.ne_of_upc hu hl)
  · exact .holds (by simp [he, hn, hw])
  · exact .moves (by simp [he, hw]) (State.ne_of_upc hu hl)
  · refine .moves (by simp [he, hw]) fun h => ?_
    have : true = s.txpend := congrArg State.txpend h
    simp [hw] at this

end Primitives

theorem HoldsUnlessEnabled.waitRx {s : State} {k : Label} {t : Nat} {leave : Bool → State} (hu : s.upc = k)
    (hl : ∀ b, (leave b).upc ≠ k) (hp : s.primAt k = some (.waitRx t)) : HoldsUnlessEnabled s (s.waitRx t leave) := by
  have he : s.blockEnabled = (decide (s.rxq ≠ []) || s.elapsed t) := by rw [State.blockEnabled, hu, hp]
  rcases s.waitRx_cases t leave with ⟨hq, e⟩ | ⟨-, ht, e⟩ | ⟨hq, ht, e⟩ <;> rw [e]
  · exact .moves (by simp [he, hq]) (State.ne_of_upc hu (hl _))
  · exact .moves (by simp [he, ht]) (State.ne_of_upc hu (hl _))
  · exact .holds (by simp [he, hq, ht])

/-! ### Command by command -/

/-- SM8 completes or returns to one of the calling command's labels. -/
theorem State.ReturnsLegally.recordMode_upc {s : State} (hr : s.ReturnsLegally) : s.recordMode.upc ≠ .sm8 := by
  rcases s.recordMode_cases with ⟨-, e⟩ | ⟨l, hl, e⟩ <;> rw [e]
  · nofun
  · rintro rfl
    simpa using hr _ hl

theorem HoldsUnlessEnabled.setModeStep {s t : State} (hr : s.ReturnsLegally) (h : s.setModeStep = .next t) :
    HoldsUnlessEnabled s t := by
  unfold State.setModeStep at h
  split at h <;> cases h
  · next hu => exact .delay hu nofun rfl
  · next hu => exact .plain hu rfl nofun nofun
  · next hu => exact .plain hu rfl nofun nofun
  · next hu => exact .plain hu rfl nofun nofun
  · next hu => exact .delay hu nofun rfl
  · next hu => exact .drain hu nofun rfl
  · next hu => exact .busyWait hu nofun rfl
  · next hu => exact .plain hu rfl nofun hr.recordMode_upc

theorem HoldsUnlessEnabled.readParams {s t : State} (hr : s.ReturnsLegally) (h : execReadParams s = .next t) :
    HoldsUnlessEnabled s t := by
  unfold execReadParams at h
  split at h
  case h_9 => exact .setModeStep hr h
  all_goals cases h
  · next hu => exact .plain hu rfl nofun nofun
  · next hu => exact .plain hu rfl nofun nofun
  · next hu => exact .txWrite hu nofun rfl
  · next hu => exact .delay hu nofun rfl
  · next hu => exact .rxRead hu nofun rfl
  · next hu => exact .plain hu rfl nofun nofun
  · next hu => exact .plain hu rfl nofun nofun
  · next hu =>
    refine .judge hu rfl nofun _ _ ?_
    split <;> nofun

theorem HoldsUnlessEnabled.saveParams {p : Persistence} {s t : State} (hr : s.ReturnsLegally)
    (h : execSaveParams p s = .next t) : HoldsUnlessEnabled s t := by
  unfold execSaveParams at h
  split at h
  case h_9 => exact .setModeStep hr h
  all_goals cases h
  · next hu => exact .plain hu rfl nofun nofun
  · next hu => exact .plain hu rfl nofun nofun
  · next hu => exact .delay hu nofun rfl
  · next hu => exact .txWrite hu nofun rfl
  · next hu => exact .waitRx hu (fun _ => nofun) rfl
  · next hu => exact .rxRead hu nofun rfl
  · next hu => exact .plain hu rfl nofun nofun
  · next hu => exact .judge hu rfl nofun _ _ nofun

theorem HoldsUnlessEnabled.setCryptKey {key : BitVec 16} {s t : State} (hr : s.ReturnsLegally)
    (h : execSetCryptKey key s = .next t) : HoldsUnlessEnabled s t := by
  unfold execSetCryptKey at h
  split at h
  case h_8 => exact .setModeStep hr h
  all_goals cases h
  · next hu => exact .plain hu rfl nofun nofun
  · next hu => exact .plain hu rfl nofun nofun
  · next hu => exact .delay hu nofun rfl
  · next hu => exact .txWrite hu nofun rfl
  · next hu => exact .rxRead hu nofun rfl
  · next hu => exact .plain hu rfl nofun nofun
  · next hu => exact .judge hu rfl nofun _ _ nofun

/-- The size a transfer of DATA bytes waits for is the command's operand (R121). -/
theorem HoldsUnlessEnabled.send {n : BitVec 16} {s t : State} (hn : Word.data s.cmdlat = n)
    (h : execSend n s = .next t) : HoldsUnlessEnabled s t := by
  subst hn
  unfold execSend at h
  split at h <;> cases h
  · next hu => exact .txWrite hu nofun rfl
  · next hu => exact .busyWait hu nofun rfl
  · next hu => exact .judge hu rfl nofun _ _ nofun

/-- DR3 waits only where the RSSI byte is enabled (R232). -/
theorem HoldsUnlessEnabled.rssiPoll {s : State} (hu : s.upc = .dr3) : HoldsUnlessEnabled s (s.rssiPoll .dr4) := by
  unfold State.rssiPoll
  split
  · next he => exact .waitRx hu (fun _ => nofun) (if_pos he)
  · next he => exact .plain hu (if_neg he) nofun nofun

theorem HoldsUnlessEnabled.receive {n : BitVec 16} {s t : State} (hn : Word.data s.cmdlat = n)
    (h : execReceive n s = .next t) : HoldsUnlessEnabled s t := by
  subst hn
  unfold execReceive at h
  split at h
  case h_4 hu =>
    unfold State.rssiTake at h
    split at h
    · split at h <;> cases h
      exact .plain hu rfl nofun nofun
    · cases h
      exact .plain hu rfl nofun nofun
  all_goals cases h
  · next hu => exact .plain hu rfl nofun nofun
  · next hu => exact .rxRead hu nofun rfl
  · next hu => exact .rssiPoll hu
  · next hu => exact .busyWait hu nofun rfl
  · next hu => exact .judge hu rfl nofun _ _ nofun

theorem HoldsUnlessEnabled.queryRssi {s t : State} (h : execQueryRssi s = .next t) : HoldsUnlessEnabled s t := by
  unfold execQueryRssi at h
  split at h <;> cases h
  · next hu => exact .judge hu rfl nofun _ _ nofun
  · next hu => exact .plain hu rfl nofun nofun
  · next hu => exact .txWrite hu nofun rfl
  · next hu => exact .delay hu nofun rfl
  · next hu => exact .rxRead hu nofun rfl
  · next hu => exact .judge hu rfl nofun _ _ nofun

theorem HoldsUnlessEnabled.exec {i : Instr} {s t : State} (hd : decode s.par.payloadMax s.cmdlat = .ok i)
    (hr : s.ReturnsLegally) (h : exec i s = .next t) : HoldsUnlessEnabled s t := by
  cases i with
  | setMode mc => exact .setModeStep hr h
  | setField f v | getField f | loadReg r b | noiseDbm raw =>
    simp only [Machine.exec, execSetField, execGetField, execLoadReg, execNoiseDbm] at h
    split at h <;> cases h
    next hu => exact .plain hu rfl nofun nofun
  | readParams => exact .readParams hr h
  | saveParams p => exact .saveParams hr h
  | setCryptKey key => exact .setCryptKey hr h
  | send n => exact .send (decode_size hd (.inl rfl)).1 h
  | receive n => exact .receive (decode_size hd (.inr rfl)).1 h
  | queryRssi => exact .queryRssi h

/-- An idle block has no enabled step (R14). -/
theorem State.blockEnabled_idle {s : State} (hu : s.upc = .idle) : s.blockEnabled = false := by
  rw [State.blockEnabled, hu]
  rfl

theorem HoldsUnlessEnabled.blockStep {s t : State} (hi : s.Inv) (h : s.blockStep = .next t) :
    HoldsUnlessEnabled s t := by
  rcases State.blockStep_cases h with ⟨hu, rfl⟩ | ⟨hu, i, hd, hx⟩
  · exact .holds (State.blockEnabled_idle hu)
  · exact .exec hd (hi.running hu hd).2.returnsLegally hx

end Sys2Proof.Machine

open Sys2Proof Sys2Proof.Machine

/-- Settles O35: a good state's block step answers a state, the same one exactly where the block is not enabled. -/
theorem blockHoldsExactlyWhenNotEnabled : Obligations.BlockHoldsExactlyWhenNotEnabled := by
  intro s h
  obtain ⟨t, ht, -⟩ := h.blockStep
  have hiff := HoldsUnlessEnabled.blockStep h ht
  refine ⟨fun he => ?_, fun he => ⟨t, ht, fun e => ?_⟩⟩
  · rw [ht, hiff.2 he]
  · exact absurd ((hiff.1 e).symm.trans he) (by decide)
end

section
/-! Command words (30_encoding.md R120 to R128, R148): the encoder and the decoder are inverse, the rows of the opcode
map are told apart by OP, and the packed registers (40_codec.md R130 to R134, R160). -/

namespace Sys2Proof

/-! ### The fields of a word as numbers -/

theorem Word.op_toNat (w : Word) : (Word.op w).toNat = w.toNat / 2 ^ 24 := by
  unfold Word.op
  rw [BitVec.extractLsb'_toNat, Nat.shiftRight_eq_div_pow]
  omega

theorem Word.sel_toNat (w : Word) : (Word.sel w).toNat = w.toNat / 2 ^ 16 % 2 ^ 8 := by
  unfold Word.sel
  rw [BitVec.extractLsb'_toNat, Nat.shiftRight_eq_div_pow]

/-- An operand in the low bits of SEL (R121). -/
theorem enc_sel_operand {k : Nat} (o : BitVec 8) (x : BitVec k) (d : BitVec 16) (hk : k ≤ 8) :
    (enc o (x.setWidth 8) d).toNat / 2 ^ 16 % 2 ^ k = x.toNat := by
  rw [← Nat.mod_mod_of_dvd _ (Nat.pow_dvd_pow 2 hk), ← Word.sel_toNat, sel_enc,
    BitVec.toNat_setWidth_of_le hk, Nat.mod_eq_of_lt x.isLt]

/-- An operand in the low bits of DATA (R121). -/
theorem enc_data_operand {k : Nat} (o l : BitVec 8) (x : BitVec k) (hk : k ≤ 16) :
    (enc o l (x.setWidth 16)).toNat % 2 ^ k = x.toNat := by
  rw [← Nat.mod_mod_of_dvd _ (Nat.pow_dvd_pow 2 hk), ← Word.data_toNat, data_enc,
    BitVec.toNat_setWidth_of_le hk, Nat.mod_eq_of_lt x.isLt]

theorem enc_data (o l : BitVec 8) (d : BitVec 16) : (enc o l d).toNat % 2 ^ 16 = d.toNat := by
  rw [← Word.data_toNat, data_enc]

theorem enc_eq_zero_iff {o l : BitVec 8} {d : BitVec 16} : enc o l d = 0#32 ↔ o = 0#8 ∧ l = 0#8 ∧ d = 0#16 := by
  refine ⟨fun h => ⟨?_, ?_, ?_⟩, ?_⟩
  · rw [← op_enc o l d, h]; rfl
  · rw [← sel_enc o l d, h]; rfl
  · rw [← data_enc o l d, h]; rfl
  · rintro ⟨rfl, rfl, rfl⟩; rfl

/-- The low bits of SEL are the word's from bit 16. -/
theorem Word.sel_extractLsb' {k : Nat} (w : Word) (hk : k ≤ 8) : (Word.sel w).extractLsb' 0 k = w.extractLsb' 16 k := by
  ext i hi
  simp [Word.sel, show i < 8 by omega]

/-! ### Must-be-zero bits -/

/-- The bits above an operand are 0 where it stands in a wider field. -/
theorem setWidth_and_highBits {n k : Nat} (x : BitVec k) : x.setWidth n &&& (BitVec.allOnes n <<< k) = 0#n := by
  ext i hi
  simpa [hi] using BitVec.lt_of_getLsbD

/-- The bits from `k` up are 0 exactly where the low `k` bits, extended again, are the whole value. -/
theorem and_highBits_eq_zero_iff {n k : Nat} (x : BitVec n) :
    x &&& (BitVec.allOnes n <<< k) = 0#n ↔ (x.extractLsb' 0 k).setWidth n = x := by
  refine ⟨fun h => ?_, fun h => h ▸ setWidth_and_highBits _⟩
  ext i hi
  have hbit : x.getLsbD i = true → k ≤ i → False := by simpa [hi] using congrArg (·.getLsbD i) h
  simpa [hi, ← BitVec.getLsbD_eq_getElem] using fun hx => Nat.lt_of_not_le (hbit hx)

theorem extractLsb'_setWidth_self {n k : Nat} (x : BitVec k) (hk : k ≤ n) : (x.setWidth n).extractLsb' 0 k = x := by
  rw [BitVec.extractLsb'_setWidth_of_le (by rwa [Nat.zero_add]), BitVec.extractLsb'_eq_self]

/-- A row's must-be-zero bits below OP are those of SEL and those of DATA. -/
theorem and_enc_eq_zero_iff (w : Word) (l : BitVec 8) (d : BitVec 16) :
    w &&& enc 0#8 l d = 0#32 ↔ Word.sel w &&& l = 0#8 ∧ Word.data w &&& d = 0#16 := by
  conv_lhs => rw [← enc_fields w, enc_and, enc_eq_zero_iff]
  simp

/-! ### The ids of fields, registers and persistence codes -/

@[simp] theorem Field.id_ofId : ∀ x : BitVec 4, (Field.ofId x).id = x := by decide

@[simp] theorem Persistence.bit_ofBit : ∀ p : BitVec 1, (Persistence.ofBit p).bit = p := by decide

theorem Reg.ofId_eq_some_iff {x : BitVec 3} {r : Reg} : Reg.ofId x = some r ↔ x = r.id := by
  revert x
  cases r <;> decide

/-- The ids 6 and 7 name no register (R126). -/
theorem Reg.ofId_eq_none_iff : ∀ {x : BitVec 3}, Reg.ofId x = none ↔ 6 ≤ x.toNat := by decide

/-! ### Answers of the decoder -/

@[simp] theorem mbz_eq_ok_iff {z : Bool} {x : Except Illegal Instr} {i : Instr} :
    mbz z x = .ok i ↔ z = true ∧ x = .ok i := by
  cases z <;> simp [mbz]

@[simp] theorem mbz_eq_error_iff {z : Bool} {x : Except Illegal Instr} {e : Illegal} :
    mbz z x = .error e ↔ (z = false ∧ e = .mustBeZero) ∨ (z = true ∧ x = .error e) := by
  cases z <;> simp [mbz, eq_comm]

@[simp] theorem constrained_eq_ok_iff {c : Bool} {i j : Instr} : constrained c i = .ok j ↔ c = true ∧ i = j := by
  cases c <;> simp [constrained]

@[simp] theorem constrained_eq_error_iff {c : Bool} {i : Instr} {e : Illegal} :
    constrained c i = .error e ↔ c = false ∧ e = .valueConstraint := by
  cases c <;> simp [constrained, eq_comm]

@[simp] theorem decode_enc (pm : Nat) (op sel : BitVec 8) (data : BitVec 16) :
    decode pm (enc op sel data) = decodeFields pm op sel data := by
  simp [decode]

/-! ### The encoder and the decoder are inverse -/

/-- Each operand comes back from its place, above which the encoder leaves the must-be-zero bits 0. -/
theorem decode_encode {pm : Nat} {i : Instr} (h : i.WellFormed pm) : decode pm (encode i) = .ok i := by
  cases i with
  | setMode mc =>
    have hz : mc.setWidth 8 &&& 0xFC#8 = 0#8 := setWidth_and_highBits mc
    simp [encode, decodeFields, hz, extractLsb'_setWidth_self]
  | setField f v | getField f =>
    have hz : f.id.setWidth 8 &&& 0xF0#8 = 0#8 := setWidth_and_highBits f.id
    simp [encode, decodeFields, hz, extractLsb'_setWidth_self]
  | loadReg r b =>
    have hr : r.id.setWidth 8 &&& 0xF8#8 = 0#8 := setWidth_and_highBits r.id
    have hb : b.setWidth 16 &&& 0xFF00#16 = 0#16 := setWidth_and_highBits b
    simp [encode, decodeFields, hr, hb, extractLsb'_setWidth_self]
  | noiseDbm raw =>
    have hz : raw.setWidth 16 &&& 0xFE00#16 = 0#16 := setWidth_and_highBits raw
    simp [encode, decodeFields, hz, extractLsb'_setWidth_self]
  | saveParams p =>
    have hz : p.bit.setWidth 8 &&& 0xFE#8 = 0#8 := setWidth_and_highBits p.bit
    simp [encode, decodeFields, hz, extractLsb'_setWidth_self]
  | send n | receive n => simpa [encode, decodeFields] using h
  | readParams | setCryptKey key | queryRssi => simp [encode, decodeFields]

/-- The row of OP, its must-be-zero bits and its operands determine the word. -/
theorem encode_of_decodeFields {pm : Nat} {op sel : BitVec 8} {data : BitVec 16} {i : Instr}
    (h : decodeFields pm op sel data = .ok i) : encode i = enc op sel data ∧ i.WellFormed pm := by
  have low8 {k : Nat} := and_highBits_eq_zero_iff (k := k) sel
  have low16 {k : Nat} := and_highBits_eq_zero_iff (k := k) data
  rw [show op = BitVec.ofNat 8 op.toNat by simp]
  unfold decodeFields at h
  split at h
  case h_1 ho =>
    rw [ho]
    obtain ⟨⟨hs, rfl⟩, rfl⟩ : (sel &&& 0xFC#8 = 0#8 ∧ data = 0#16) ∧ _ = i := by simpa using h
    exact ⟨by rw [encode, low8.1 hs], trivial⟩
  case h_2 ho =>
    rw [ho]
    obtain ⟨hs, rfl⟩ : sel &&& 0xF0#8 = 0#8 ∧ _ = i := by simpa using h
    exact ⟨by rw [encode, Field.id_ofId, low8.1 hs], trivial⟩
  case h_3 ho =>
    rw [ho]
    obtain ⟨⟨hs, rfl⟩, rfl⟩ : (sel &&& 0xF0#8 = 0#8 ∧ data = 0#16) ∧ _ = i := by simpa using h
    exact ⟨by rw [encode, Field.id_ofId, low8.1 hs], trivial⟩
  case h_4 ho =>
    rw [ho]
    split at h
    · next r hr =>
      obtain ⟨⟨hs, hd⟩, rfl⟩ : (sel &&& 0xF8#8 = 0#8 ∧ data &&& 0xFF00#16 = 0#16) ∧ _ = i := by simpa using h
      exact ⟨by rw [encode, ← Reg.ofId_eq_some_iff.1 hr, low8.1 hs, low16.1 hd], trivial⟩
    · simp at h
  case h_5 ho =>
    rw [ho]
    obtain ⟨⟨rfl, hd⟩, rfl⟩ : (sel = 0#8 ∧ data &&& 0xFE00#16 = 0#16) ∧ _ = i := by simpa using h
    exact ⟨by rw [encode, low16.1 hd], trivial⟩
  case h_7 ho =>
    rw [ho]
    obtain ⟨⟨hs, rfl⟩, rfl⟩ : (sel &&& 0xFE#8 = 0#8 ∧ data = 0#16) ∧ _ = i := by simpa using h
    exact ⟨by rw [encode, Persistence.bit_ofBit, low8.1 hs], trivial⟩
  case h_8 ho =>
    rw [ho]
    obtain ⟨rfl, rfl⟩ : sel = 0#8 ∧ _ = i := by simpa using h
    exact ⟨rfl, trivial⟩
  case h_6 | h_11 =>
    next ho =>
    rw [ho]
    obtain ⟨⟨rfl, rfl⟩, rfl⟩ : (sel = 0#8 ∧ data = 0#16) ∧ _ = i := by simpa using h
    exact ⟨rfl, trivial⟩
  case h_9 | h_10 =>
    next ho =>
    rw [ho]
    obtain ⟨rfl, hn, rfl⟩ : sel = 0#8 ∧ data.toNat ≤ pm ∧ _ = i := by simpa using h
    exact ⟨rfl, hn⟩
  case h_12 => cases h

theorem encode_of_decode {pm : Nat} {w : Word} {i : Instr} (h : decode pm w = .ok i) :
    encode i = w ∧ i.WellFormed pm := by
  rw [← enc_fields w]
  exact encode_of_decodeFields h

/-! ### Illegal words -/

/-- R128: the words whose OP has no row. -/
theorem decodeFields_eq_unassignedOpcode_iff {pm : Nat} {op sel : BitVec 8} {data : BitVec 16} :
    decodeFields pm op sel data = .error .unassignedOpcode ↔
      op.toNat = 0 ∨ (6 ≤ op.toNat ∧ op.toNat ≤ 0x0F) ∨ 0x16 ≤ op.toNat := by
  unfold decodeFields
  split
  case h_4 ho => split <;> simp [ho]
  case h_12 =>
    simp only [imp_false, true_iff] at *
    omega
  all_goals next ho => simp [ho]

/-- R128: the three rows with a value constraint, where it fails and the must-be-zero bits are 0. -/
theorem decodeFields_eq_valueConstraint_iff {pm : Nat} {op sel : BitVec 8} {data : BitVec 16} :
    decodeFields pm op sel data = .error .valueConstraint ↔
      (op.toNat = 0x04 ∧ (sel &&& 0xF8#8 = 0#8 ∧ data &&& 0xFF00#16 = 0#16) ∧ 6 ≤ (sel.extractLsb' 0 3).toNat) ∨
      ((op.toNat = 0x13 ∨ op.toNat = 0x14) ∧ sel = 0#8 ∧ pm < data.toNat) := by
  rw [← Reg.ofId_eq_none_iff]
  unfold decodeFields
  split
  case h_4 ho =>
    split
    case h_1 r hr => simp [ho, hr]
    case h_2 hr => simp [ho, hr]
  case h_12 =>
    simp only [imp_false] at *
    simp [*]
  all_goals next ho => simp [ho]

/-! ### The rows of the opcode map -/

theorem OpRow.matches_iff {row : OpRow} {pm : Nat} {w : Word} :
    row.matches pm w = true ↔ w &&& row.mask = row.pattern ∧ row.holds pm w = true := by
  simp [OpRow.matches]

/-- A word that a row matches has the row's OP: every mask holds the whole of OP. -/
theorem OpRow.op_of_matches {row : OpRow} {pm : Nat} {w : Word} (hr : row ∈ opTable)
    (h : row.matches pm w = true) : Word.op w = Word.op row.pattern := by
  have hm : ∀ row ∈ opTable, Word.op row.mask = BitVec.allOnes 8 := by decide
  rw [← (OpRow.matches_iff.1 h).1, Word.op, Word.op, BitVec.extractLsb'_and, ← Word.op, ← Word.op, hm row hr,
    BitVec.and_allOnes]

/-- Two rows of one OP are one row. -/
theorem opTable_mnemonic_of_op : ∀ row ∈ opTable, ∀ row' ∈ opTable,
    Word.op row.pattern = Word.op row'.pattern → row.mnemonic = row'.mnemonic := by decide

theorem OpRow.mnemonic_eq_of_matches {row row' : OpRow} {pm : Nat} {w : Word} (hr : row ∈ opTable)
    (hr' : row' ∈ opTable) (h : row.matches pm w = true) (h' : row'.matches pm w = true) :
    row.mnemonic = row'.mnemonic :=
  opTable_mnemonic_of_op row hr row' hr' ((op_of_matches hr h).symm.trans (op_of_matches hr' h'))

open Laws.EncodesIntoItsRow in
/-- The laws of the instructions together: an encoded command matches its own row. -/
theorem exists_row_of_encode {pm : Nat} {i : Instr} (h : i.WellFormed pm) :
    ∃ row ∈ opTable, row.mnemonic = i.mnemonic ∧ row.matches pm (encode i) = true := by
  cases i with
  | setMode mc => exact setMode mc pm h
  | setField f v => exact setField f v pm h
  | getField f => exact getField f pm h
  | loadReg r b => exact loadReg r b pm h
  | noiseDbm raw => exact noiseDbm raw pm h
  | readParams => exact readParams pm h
  | saveParams p => exact saveParams p pm h
  | setCryptKey key => exact setCryptKey key pm h
  | send n => exact send n pm h
  | receive n => exact receive n pm h
  | queryRssi => exact queryRssi pm h

/-- The columns of a matching row, cut into the fields of the word, are the conditions the decoder tests. -/
theorem decode_of_matches {row : OpRow} {pm : Nat} {w : Word} (hr : row ∈ opTable)
    (h : row.matches pm w = true) : ∃ i, decode pm w = .ok i := by
  obtain ⟨hw, hc⟩ := OpRow.matches_iff.1 h
  have ho := OpRow.op_of_matches hr h
  have hs : Word.sel w &&& Word.sel row.mask = Word.sel row.pattern := by
    rw [← hw]; exact BitVec.extractLsb'_and.symm
  have hd : Word.data w &&& Word.data row.mask = Word.data row.pattern := by
    rw [← hw]; exact BitVec.extractLsb'_and.symm
  have hff : ∀ x : BitVec 8, x &&& 0xFF#8 = x := fun _ => BitVec.and_allOnes
  have hffff : ∀ x : BitVec 16, x &&& 0xFFFF#16 = x := fun _ => BitVec.and_allOnes
  simp only [opTable, List.cons_append, List.nil_append, List.mem_cons, List.not_mem_nil, or_false] at hr
  rw [decode, ho]
  rcases hr with rfl | rfl | rfl | rfl | rfl | rfl | rfl | rfl | rfl | rfl | rfl
  -- LOAD_REG, whose constraint is on the register id
  case inr.inr.inr.inl =>
    obtain ⟨r, hr⟩ : ∃ r, Reg.ofId ((Word.sel w).extractLsb' 0 3) = some r := by
      rw [← Option.ne_none_iff_exists', ne_eq, Reg.ofId_eq_none_iff, Word.sel_extractLsb' w (by decide)]
      have := of_decide_eq_true hc
      omega
    have hs : Word.sel w &&& 0xF8#8 = 0#8 := hs
    have hd : Word.data w &&& 0xFF00#16 = 0#16 := hd
    change ∃ i, decodeFields pm 0x04#8 _ _ = .ok i
    simp [decodeFields, hs, hd, hr]
  all_goals
    simp [Word.sel, Word.data, hff, hffff] at hs hd hc
    simp [decodeFields, Word.op, Word.sel, Word.data, hs, hd, hc]

/-! ### The places of the fields in the packed registers -/

/-- The field of each bit of a register (R125, R131 to R134). -/
def Reg.fieldAt : Reg → Fin 8 → Field
  | .addh, _ => .addh
  | .addl, _ => .addl
  | .reg0, j => if 5 ≤ j then .uart else if 3 ≤ j then .parity else .airRate
  | .reg1, j => if 6 ≤ j then .subPacket else if 5 ≤ j then .ambNoiseEn else if 2 ≤ j then .reg1Rsv else .txPower
  | .channel, _ => .channel
  | .reg3, j =>
    if 7 ≤ j then .rssiByteEn else if 6 ≤ j then .txMode else if 5 ≤ j then .reg3Rsv5 else if 4 ≤ j then .lbtEn
    else if 3 ≤ j then .reg3Rsv3 else .worTiming

/-- A bit lies in the place of its field. -/
theorem Reg.fieldAt_place (r : Reg) : ∀ j : Fin 8, (r.fieldAt j).place.1 = r ∧ (r.fieldAt j).place.2 ≤ j ∧
    j < (r.fieldAt j).place.2 + (r.fieldAt j).width := by
  cases r <;> decide

/-- A bit lies in the place of no other field. -/
theorem Field.eq_fieldAt_of_place (g : Field) :
    ∀ j : Fin 8, g.place.2 ≤ j → j < g.place.2 + g.width → g = g.place.1.fieldAt j := by
  cases g <;> decide

end Sys2Proof

namespace Sys2Proof.Machine

/-- REG0 by its fields (R131). -/
theorem Image.pack0_toNat (f : Image) :
    f.pack0.toNat = f.airRate.toNat + 2 ^ 3 * f.parity.toNat + 2 ^ 5 * f.uart.toNat := by
  unfold Image.pack0
  simp only [toNat_append_eq_add]
  omega

/-- REG1 by its fields (R132). -/
theorem Image.pack1_toNat (f : Image) :
    f.pack1.toNat =
      f.txPower.toNat + 2 ^ 2 * f.reg1Rsv.toNat + 2 ^ 5 * f.ambNoiseEn.toNat + 2 ^ 6 * f.subPacket.toNat := by
  unfold Image.pack1
  simp only [toNat_append_eq_add]
  omega

/-- REG3 by its fields (R133). -/
theorem Image.pack3_toNat (f : Image) :
    f.pack3.toNat = f.worTiming.toNat + 2 ^ 3 * f.reg3Rsv3.toNat + 2 ^ 4 * f.lbtEn.toNat +
      2 ^ 5 * f.reg3Rsv5.toNat + 2 ^ 6 * f.txMode.toNat + 2 ^ 7 * f.rssiByteEn.toNat := by
  unfold Image.pack3
  simp only [toNat_append_eq_add]
  omega

/-- Every field is the bits of its register's byte at its place (R160). -/
theorem Image.field_toNat (img : Image) (f : Field) :
    (img.field f).toNat = (img.regbyte f.place.1).toNat / 2 ^ f.place.2 % 2 ^ f.width := by
  cases f <;>
    simp only [Image.field, Image.regbyte, Field.place, Field.width, Image.pack0_toNat, Image.pack1_toNat,
      Image.pack3_toNat, BitVec.toNat_setWidth] <;>
    omega

end Sys2Proof.Machine

open Sys2Proof Sys2Proof.Machine

/-- Settles O1: command by command, the row is found by its OP and each operand at its place. -/
theorem decodeOfEncode : Obligations.DecodeOfEncode :=
  fun _ _ => decode_encode

/-- Settles O2: OP, the must-be-zero bits and the operands leave no bit of the word open. -/
theorem encodeOfDecode : Obligations.EncodeOfDecode :=
  fun _ _ _ => encode_of_decode

/-- Settles O3: the encoded command matches its row, a row's match decodes, and OP tells the rows apart. -/
theorem legalOnExactlyOneRow : Obligations.LegalOnExactlyOneRow := by
  intro pm w
  have hrow : ∀ i, decode pm w = .ok i → ∃ row ∈ opTable, row.mnemonic = i.mnemonic ∧ row.matches pm w = true := by
    intro i hi
    obtain ⟨rfl, hwf⟩ := encode_of_decode hi
    exact exists_row_of_encode hwf
  refine ⟨⟨fun ⟨i, hi⟩ => ?_, fun ⟨row, hr, h⟩ => decode_of_matches hr h⟩,
    fun row hr row' hr' h h' => OpRow.mnemonic_eq_of_matches hr hr' h h', fun i hi row hr h => ?_⟩
  · obtain ⟨row, hr, -, h⟩ := hrow i hi
    exact ⟨row, hr, h⟩
  · obtain ⟨row', hr', hmn, h'⟩ := hrow i hi
    exact (OpRow.mnemonic_eq_of_matches hr hr' h h').trans hmn

/-- Settles O4: the word is the command's encoding, which puts each operand at its place. -/
theorem operandsOfALegalWord : Obligations.OperandsOfALegalWord := by
  intro pm w i hi
  obtain ⟨rfl, -⟩ := encode_of_decode hi
  cases i with
  | setMode mc => exact (enc_sel_operand _ mc _ (by decide)).symm
  | setField f v => exact ⟨(enc_sel_operand _ f.id _ (by decide)).symm, (enc_data _ _ v).symm⟩
  | getField f => exact (enc_sel_operand _ f.id _ (by decide)).symm
  | loadReg r b => exact ⟨(enc_sel_operand _ r.id _ (by decide)).symm, (enc_data_operand _ _ b (by decide)).symm⟩
  | noiseDbm raw => exact (enc_data_operand _ _ raw (by decide)).symm
  | saveParams p => exact (enc_sel_operand _ p.bit _ (by decide)).symm
  | setCryptKey key => exact (enc_data _ _ key).symm
  | send n | receive n => exact (enc_data _ _ n).symm
  | readParams | queryRssi => trivial

/-- Settles O5: the reasons by the fields of the word. -/
theorem illegalWordReasons : Obligations.IllegalWordReasons := by
  intro pm w
  have hreg : w &&& 0x00F8FF00#32 = 0#32 ↔ _ := and_enc_eq_zero_iff w 0xF8#8 0xFF00#16
  have hsel : w &&& 0x00FF0000#32 = 0#32 ↔ _ := and_enc_eq_zero_iff w (BitVec.allOnes 8) 0#16
  have hrid : ((Word.sel w).extractLsb' 0 3).toNat = w.toNat / 2 ^ 16 % 8 := by
    rw [Word.sel_extractLsb' w (by decide), BitVec.extractLsb'_toNat, Nat.shiftRight_eq_div_pow]
  rw [hreg, hsel, BitVec.and_allOnes, BitVec.and_zero, and_iff_left rfl, ← hrid, ← Word.op_toNat, ← Word.data_toNat]
  exact ⟨decodeFields_eq_unassignedOpcode_iff, decodeFields_eq_valueConstraint_iff⟩

/-- Settles O43: the packed bytes are the sums of their fields, and each bit has its one field. -/
theorem packedLayout : Obligations.PackedLayout := by
  refine ⟨Image.field_toNat, fun r j => ?_⟩
  obtain ⟨hr, hlow, hhigh⟩ := r.fieldAt_place j
  refine ⟨r.fieldAt j, hr, hlow, hhigh, ?_⟩
  rintro g rfl hg hg'
  exact g.eq_fieldAt_of_place j hg hg'

/-- Settles O6: each word's command is computed. -/
theorem sampleWords : Obligations.SampleWords := by
  unfold Obligations.SampleWords
  decide
end

section
/-! The codec commands (40_codec.md R160 to R167): what writing one field or one register does to the others, the two
laws of the codec, and the one step of each command. -/

namespace Sys2Proof

theorem Field.width_le (f : Field) : f.width ≤ 8 := by
  cases f <;> decide

/-- Zero extension loses nothing. -/
theorem eq_of_setWidth_eq {n k : Nat} {x y : BitVec k} (h : x.setWidth n = y.setWidth n)
    (hk : k ≤ n := by decide) : x = y := by
  rw [← extractLsb'_setWidth_self x hk, h, extractLsb'_setWidth_self y hk]

end Sys2Proof

namespace Sys2Proof.Machine

/-! ### Fields and registers of a changed image -/

/-- Writing a field truncates the value to its width and is seen by no other field (R161, R162). -/
theorem Image.field_setField (img : Image) (f g : Field) (v : BitVec 16) :
    (img.setField f v).field g = if g = f then (v.setWidth f.width).setWidth 32 else img.field g := by
  cases f <;> cases g <;> rfl

/-- An image is its sixteen fields. -/
theorem Image.eq_of_field {a b : Image} (h : ∀ f, a.field f = b.field f) : a = b := by
  cases a
  cases b
  rw [Image.mk.injEq]
  exact ⟨eq_of_setWidth_eq (h .uart), eq_of_setWidth_eq (h .parity), eq_of_setWidth_eq (h .airRate),
    eq_of_setWidth_eq (h .subPacket), eq_of_setWidth_eq (h .ambNoiseEn), eq_of_setWidth_eq (h .reg1Rsv),
    eq_of_setWidth_eq (h .txPower), eq_of_setWidth_eq (h .rssiByteEn), eq_of_setWidth_eq (h .txMode),
    eq_of_setWidth_eq (h .reg3Rsv5), eq_of_setWidth_eq (h .lbtEn), eq_of_setWidth_eq (h .reg3Rsv3),
    eq_of_setWidth_eq (h .worTiming), eq_of_setWidth_eq (h .addh), eq_of_setWidth_eq (h .addl),
    eq_of_setWidth_eq (h .channel)⟩

/-- Every field is the bits of its register's byte at its place (R160). -/
theorem Image.extractLsb'_regbyte (img : Image) (f : Field) :
    ((img.regbyte f.place.1).extractLsb' f.place.2 f.width).setWidth 32 = img.field f := by
  have hw := f.width_le
  apply BitVec.eq_of_toNat_eq
  rw [Image.field_toNat, BitVec.toNat_setWidth_of_le (by omega), BitVec.extractLsb'_toNat, Nat.shiftRight_eq_div_pow]

/-- Writing a register puts the bits of the byte into the register's own fields (R165). -/
theorem Image.field_setReg (img : Image) (r : Reg) (b : Byte) (f : Field) :
    (img.setReg r b).field f =
      if f.place.1 = r then (b.extractLsb' f.place.2 f.width).setWidth 32 else img.field f := by
  have hb : b.setWidth 32 = (b.extractLsb' 0 8).setWidth 32 := by rw [BitVec.extractLsb'_eq_self]
  cases r <;> cases f
  case addh.addh | addl.addl | channel.channel => exact hb
  all_goals rfl

/-- The fields of a packed byte are those it was packed from (R166). -/
theorem Image.setReg_regbyte (img : Image) (r : Reg) : img.setReg r (img.regbyte r) = img := by
  refine Image.eq_of_field fun f => ?_
  rw [Image.field_setReg]
  split
  · next h => rw [← h, Image.extractLsb'_regbyte]
  · rfl

/-- Packing the fields of a byte gives the byte back (R166). -/
theorem Image.regbyte_setReg_self (img : Image) (r : Reg) (b : Byte) : (img.setReg r b).regbyte r = b := by
  cases r with
  | addh | addl | channel => rfl
  | reg0 | reg1 | reg3 =>
    apply BitVec.eq_of_toNat_eq
    simp only [Image.setReg, Image.regbyte, Image.pack0_toNat, Image.pack1_toNat, Image.pack3_toNat,
      BitVec.extractLsb'_toNat, Nat.shiftRight_eq_div_pow]
    omega

/-- A register's fields stand in no other register's byte (R160, R165). -/
theorem Image.regbyte_setReg_of_ne (img : Image) (b : Byte) {r q : Reg} (h : q ≠ r) :
    (img.setReg r b).regbyte q = img.regbyte q := by
  cases r <;> cases q
  case addh.addh | addl.addl | reg0.reg0 | reg1.reg1 | channel.channel | reg3.reg3 => exact absurd rfl h
  all_goals rfl

/-- The difference fits in 32 bits (R164). -/
theorem noiseDbmOf_toInt (raw : BitVec 9) : (noiseDbmOf raw).toInt = (raw.toNat : Int) - 256 := by
  have hraw : (raw.setWidth 32).toInt = raw.toNat := by
    rw [BitVec.toInt_setWidth]
    exact Int.bmod_eq_of_le (by omega) (by omega)
  have h256 : (256#32).toInt = 256 := rfl
  rw [noiseDbmOf, BitVec.toInt_sub, hraw, h256]
  exact Int.bmod_eq_of_le (by omega) (by omega)

/-! ### The commands' one step -/

theorem State.succeed_eq_succeeded (s : State) : s.succeed = succeeded s := rfl

theorem exec_setField {s : State} (hu : s.upc = .sf1) (f : Field) (v : BitVec 16) :
    exec (.setField f v) s = .next (succeeded { s with img := s.img.setField f v }) := by
  simp only [exec, execSetField, hu, State.succeed_eq_succeeded]

theorem exec_getField {s : State} (hu : s.upc = .gf1) (f : Field) :
    exec (.getField f) s = .next (succeeded { s with result := s.img.field f }) := by
  simp only [exec, execGetField, hu, State.succeed_eq_succeeded]

theorem exec_loadReg {s : State} (hu : s.upc = .lr1) (r : Reg) (b : Byte) :
    exec (.loadReg r b) s = .next (succeeded { s with img := s.img.setReg r b }) := by
  simp only [exec, execLoadReg, hu, State.succeed_eq_succeeded]

theorem exec_noiseDbm {s : State} (hu : s.upc = .nd1) (raw : BitVec 9) :
    exec (.noiseDbm raw) s = .next (succeeded { s with result := noiseDbmOf raw }) := by
  simp only [exec, execNoiseDbm, hu, State.succeed_eq_succeeded]

end Sys2Proof.Machine

open Sys2Proof Sys2Proof.Machine

/-- Settles O38: a field read after a write is the truncated value at the field written, and the old one elsewhere. -/
theorem setFieldEffect : Obligations.SetFieldEffect := by
  refine fun f v s hu => ⟨_, exec_setField hu f v, ?_, fun g hg => ?_⟩
  · have hw := f.width_le
    rw [Image.field_setField, if_pos rfl, BitVec.toNat_setWidth_of_le (by omega), BitVec.toNat_setWidth]
  · rw [Image.field_setField, if_neg hg]

/-- Settles O39: RESULT is the field, which is those bits of its register's byte. -/
theorem getFieldEffect : Obligations.GetFieldEffect :=
  fun f s hu => ⟨_, exec_getField hu f, s.img.field_toNat f⟩

/-- Settles O40: unpacking the byte into its register's fields is undone by packing, and touches no other register. -/
theorem loadRegEffect : Obligations.LoadRegEffect :=
  fun r b s hu => ⟨_, exec_loadReg hu r b, s.img.regbyte_setReg_self r b, fun _ => s.img.regbyte_setReg_of_ne b⟩

/-- Settles O41: RESULT is the difference, in two's complement. -/
theorem noiseDbmEffect : Obligations.NoiseDbmEffect :=
  fun raw _ hu => ⟨_, exec_noiseDbm hu raw, noiseDbmOf_toInt raw⟩

/-- Settles O42: unpacking and packing are inverse. -/
theorem codecLaws : Obligations.CodecLaws :=
  ⟨Image.setReg_regbyte, Image.regbyte_setReg_self⟩

end

section
/-! Who moves the pins and LAST_MODE (41_mode_fsm.md R180, R192): what a step of the block and of any other agent does
to them. -/

namespace Sys2Proof.Machine

/-! ### The block's operations -/

/-- A step leaves both pins and LAST_MODE as they are. -/
def SameModes (s t : State) : Prop := t.m0 = s.m0 ∧ t.m1 = s.m1 ∧ t.lastMode = s.lastMode

/-- What a step of the block leaves as it is but at the labels named: the pins and LAST_MODE. -/
structure ModeEffect (s t : State) : Prop where
  pins : (t.m0 = s.m0 ∧ t.m1 = s.m1) ∨ s.upc = .sm2
  lastMode : t.lastMode = s.lastMode ∨ s.upc = .sm8

theorem ModeEffect.same {s t : State} (h : SameModes s t) : ModeEffect s t :=
  have ⟨h0, h1, hl⟩ := h
  ⟨.inl ⟨h0, h1⟩, .inl hl⟩

section Operations

variable (s : State) (l : Label)

theorem SameModes.refl : SameModes s s := ⟨rfl, rfl, rfl⟩

theorem SameModes.goto : SameModes s (s.goto l) := ⟨rfl, rfl, rfl⟩

theorem SameModes.complete (ok : Bool) (err : BitVec 4) : SameModes s (s.complete ok err) := ⟨rfl, rfl, rfl⟩

theorem SameModes.delay (t : Nat) : SameModes s (s.delay t l) := by
  rcases s.delay_cases t l with ⟨-, e⟩ | ⟨-, e⟩ <;> rw [e]
  · exact .goto s l
  · exact .refl s

theorem SameModes.waitRx (t : Nat) {leave : Bool → State} (h : ∀ b, SameModes s (leave b)) :
    SameModes s (s.waitRx t leave) := by
  rcases s.waitRx_cases t leave with ⟨-, e⟩ | ⟨-, -, e⟩ | ⟨-, -, e⟩ <;> rw [e]
  · exact h _
  · exact h _
  · exact .refl s

theorem SameModes.drain : SameModes s (s.drain l) := by
  rcases s.drain_cases l with ⟨-, e⟩ | ⟨_, _, -, -, e⟩ | ⟨_, _, -, -, e⟩ <;> rw [e] <;> exact ⟨rfl, rfl, rfl⟩

theorem SameModes.busyWait : SameModes s (s.busyWait l) := by
  rcases s.busyWait_cases l with e | ⟨-, e⟩ | e <;> rw [e] <;> exact ⟨rfl, rfl, rfl⟩

theorem SameModes.rxRead (base n : Nat) : SameModes s (s.rxRead base n l) := by
  rcases s.rxRead_cases base n l with e | ⟨_, _, -, -, e⟩ | e <;> rw [e] <;> exact ⟨rfl, rfl, rfl⟩

theorem SameModes.txWrite (n : Nat) : SameModes s (s.txWrite n l) := by
  rcases s.txWrite_cases n l with ⟨-, e⟩ | ⟨-, -, e⟩ | ⟨_, -, -, -, e⟩ | ⟨-, -, -, e⟩ <;> rw [e] <;>
    exact ⟨rfl, rfl, rfl⟩

end Operations

theorem SameModes.ite {s t u : State} (c : Prop) [Decidable c] (ht : SameModes s t) (hu : SameModes s u) :
    SameModes s (if c then t else u) := by
  split
  · exact ht
  · exact hu

/-- A command's last step judges its counts. -/
theorem SameModes.judge {s t : State} (c : Prop) [Decidable c] (e : ErrCode) (h : SameModes s t) :
    SameModes s (if c then s.raise e else t) :=
  .ite c (.complete s _ _) h

/-- DR4 (R232). -/
theorem SameModes.rssiTake {s t : State} {l : Label} (h : s.rssiTake l = .next t) : SameModes s t := by
  unfold State.rssiTake at h
  split at h
  · split at h <;> cases h
    exact ⟨rfl, rfl, rfl⟩
  · cases h
    exact .goto s l

/-! ### Command by command -/

/-- The Mode Controller writes the pins at SM2 and LAST_MODE at SM8 (R183, R185). -/
theorem ModeEffect.setModeStep {s t : State} (h : s.setModeStep = .next t) : ModeEffect s t := by
  unfold State.setModeStep at h
  split at h <;> cases h
  · exact .same (.delay _ _ _)
  · next hu => exact ⟨.inr hu, .inl rfl⟩
  · rcases s.switchToProgBaud_cases with ⟨-, -, e⟩ | e <;> rw [e] <;> exact .same ⟨rfl, rfl, rfl⟩
  · rcases s.restoreBaud_cases with ⟨-, -, e⟩ | e <;> rw [e] <;> exact .same ⟨rfl, rfl, rfl⟩
  · exact .same (.delay _ _ _)
  · exact .same (.drain _ _)
  · exact .same (.busyWait _ _)
  · next hu =>
    rcases s.recordMode_cases with ⟨-, e⟩ | ⟨_, -, e⟩ <;> rw [e] <;> exact ⟨.inl ⟨rfl, rfl⟩, .inr hu⟩

/-- The Mode Controller is the only writer of the pins and LAST_MODE (R180). -/
theorem ModeEffect.exec {i : Instr} {s t : State} (h : exec i s = .next t) : ModeEffect s t := by
  cases i with
  | setMode mc => exact .setModeStep h
  | setField f v | getField f | loadReg r b | noiseDbm raw =>
    simp only [Machine.exec, execSetField, execGetField, execLoadReg, execNoiseDbm] at h
    split at h <;> cases h
    exact .same ⟨rfl, rfl, rfl⟩
  | readParams =>
    simp only [Machine.exec, execReadParams] at h
    split at h
    case h_9 => exact .setModeStep h
    all_goals cases h; apply ModeEffect.same
    case h_3 => exact .txWrite _ _ _
    case h_4 => exact .delay _ _ _
    case h_5 => exact .rxRead _ _ _ _
    case h_8 => exact .judge _ _ (.judge _ _ (.complete s _ _))
    all_goals exact ⟨rfl, rfl, rfl⟩
  | saveParams p =>
    simp only [Machine.exec, execSaveParams] at h
    split at h
    case h_9 => exact .setModeStep h
    all_goals cases h; apply ModeEffect.same
    case h_3 => exact .delay _ _ _
    case h_4 => exact .txWrite _ _ _
    case h_5 => exact .waitRx _ _ fun _ => .goto s _
    case h_6 => exact .rxRead _ _ _ _
    case h_8 => exact .judge _ _ (.complete s _ _)
    all_goals exact ⟨rfl, rfl, rfl⟩
  | setCryptKey key =>
    simp only [Machine.exec, execSetCryptKey] at h
    split at h
    case h_8 => exact .setModeStep h
    all_goals cases h; apply ModeEffect.same
    case h_3 => exact .delay _ _ _
    case h_4 => exact .txWrite _ _ _
    case h_5 => exact .rxRead _ _ _ _
    case h_7 => exact .judge _ _ (.complete s _ _)
    all_goals exact ⟨rfl, rfl, rfl⟩
  | send n =>
    simp only [Machine.exec, execSend] at h
    split at h <;> cases h <;> apply ModeEffect.same
    · exact .txWrite _ _ _
    · exact .busyWait _ _
    · exact .judge _ _ (.complete s _ _)
  | receive n =>
    simp only [Machine.exec, execReceive] at h
    split at h
    case h_4 => exact .same (.rssiTake h)
    all_goals cases h <;> apply ModeEffect.same
    · exact ⟨rfl, rfl, rfl⟩
    · exact .rxRead _ _ _ _
    · exact .ite _ (.waitRx _ _ fun _ => ⟨rfl, rfl, rfl⟩) ⟨rfl, rfl, rfl⟩
    · exact .busyWait _ _
    · exact .judge _ _ (.complete s _ _)
  | queryRssi =>
    simp only [Machine.exec, execQueryRssi] at h
    split at h <;> cases h <;> apply ModeEffect.same
    · exact .judge _ _ (.goto s _)
    · exact ⟨rfl, rfl, rfl⟩
    · exact .txWrite _ _ _
    · exact .delay _ _ _
    · exact .rxRead _ _ _ _
    · exact .judge _ _ ⟨rfl, rfl, rfl⟩

/-! ### Every step -/

/-- No host access moves the pins or LAST_MODE (R180, R251). -/
theorem SameModes.access (s : State) (x : Access) : SameModes s (s.access x) := by
  rcases s.access_any x with ⟨b, e⟩ | ⟨v, -, e⟩ | e | ⟨a, v, -, -, -, e⟩ | ⟨a, v, -, -, -, e⟩ | ⟨a, v, -, -, -, e⟩ |
    ⟨a, v, -, -, -, e⟩ <;> rw [e]
  case inr.inl =>
    obtain ⟨y, e⟩ := s.accept_any v
    rw [e]
    exact ⟨rfl, rfl, rfl⟩
  case inr.inr.inr.inr.inr.inr =>
    obtain ⟨m, e⟩ := s.writePayloadWord_eq (wordAddr a) v
    rw [e]
    exact ⟨rfl, rfl, rfl⟩
  all_goals exact ⟨rfl, rfl, rfl⟩

/-- Every step but a reset is the block's, with its effect on the modes, or leaves them alone. -/
theorem step_modes {s t : State} (h : step s = .next t) :
    (s.blockSteps ∧ ModeEffect s t) ∨ SameModes s t ∨ ∃ d rest, s.agenda = .reset d :: rest := by
  have beside : ∀ {u : State}, (u = s ∨ ∃ rest, u = { s with agenda := rest }) → SameModes u t → SameModes s t := by
    rintro u (rfl | ⟨rest, rfl⟩) e <;> exact e
  cases step_stepCase h with
  | block u t i hs hu _ _ hx =>
    have e := ModeEffect.exec hx
    refine .inl ⟨hs, ?_⟩
    rcases hu with rfl | ⟨rest, rfl⟩ <;> exact ⟨e.pins, e.lastMode⟩
  | access u t x _ hu ht =>
    obtain ⟨a, p, rfl⟩ := hu
    exact .inr (.inl (ht ▸ SameModes.access { s with agenda := a, prog := p } x))
  | reset rest d ha => exact .inr (.inr ⟨d, rest, ha⟩)
  | tick u t hu ht =>
    refine .inr (.inl (beside hu ?_))
    rw [ht, u.tick_eq_setTmr]
    exact .refl u
  | tx u t w dr _ hu ht =>
    refine .inr (.inl (beside hu ?_))
    rcases u.txAnswer_cases w with e | ⟨_, _, -, -, -, e⟩ <;> rw [ht, e] <;> exact .refl u
  | baud rest t ht =>
    refine .inr (.inl ?_)
    rcases State.takeBaud_cases { s with agenda := rest } with e | ⟨-, e⟩ <;> rw [ht, e] <;> exact .refl s
  | poll a p b | env rest q l hq => exact .inr (.inl (.refl s))

theorem Label.afterPins_iff (l : Label) : l.afterPins = true ↔ l ∈ [.sm3, .sm4, .sm5, .sm6, .sm7, .sm8] := by
  cases l <;> decide

/-- A mode code is never UNSET (R37). -/
theorem setWidth_modeCode_ne_unset : ∀ mc : BitVec 2, mc.setWidth 3 ≠ 7#3 := by
  decide

end Sys2Proof.Machine

open Sys2Proof Sys2Proof.Machine

/-- Settles O29: the block writes the pins at SM2 and LAST_MODE at SM8, no other agent does, and the invariant that
every step keeps relates them. -/
theorem modePinInvariants : Obligations.ModePinInvariants := by
  refine ⟨fun s t h hne => ?_, fun s t h hne => ?_, fun s t hi h => ?_⟩
  · rcases step_modes h with ⟨hs, e⟩ | ⟨h0, h1, -⟩ | hr
    · exact .inl ⟨hs, e.pins.resolve_left fun ⟨h0, h1⟩ => hne.elim (absurd h0) (absurd h1)⟩
    · exact hne.elim (absurd h0) (absurd h1)
    · exact .inr hr
  · rcases step_modes h with ⟨hs, e⟩ | ⟨-, -, hl⟩ | hr
    · exact .inl ⟨hs, e.lastMode.resolve_left hne⟩
    · exact absurd hl hne
    · exact .inr hr
  · have hm : t.ModeInv := (hi.stepCase (step_stepCase h)).mode
    have shown : t.upc ∉ [.sm3, .sm4, .sm5, .sm6, .sm7, .sm8] → t.PinsShow := fun hu =>
      hm.pinsShow (Bool.eq_false_iff.2 (mt t.upc.afterPins_iff.1 hu))
    refine ⟨fun hu => ?_, fun hu hl => ?_, fun hu hl => ?_⟩
    · have h1 := hm.1
      rwa [if_pos (t.upc.afterPins_iff.2 hu)] at h1
    · exact (shown hu).resolve_left fun h7 => hl h7.1
    · exact (shown hu).elim (·.2) fun h2 => absurd (h2.symm.trans hl) (setWidth_modeCode_ne_unset _)

end

section
/-! SET_MODE (41_mode_fsm.md R181 to R195): the eight micro-steps, at top level or called, and the whole command on a
quiet link. -/

namespace Sys2Proof.Machine

/-! ### The micro-steps of SET_MODE -/

section Rules

variable {i : Instr} {s : State} {l : Label}

/-- A step that runs Delay follows its rule (R187). -/
theorem DelayRule.of_delay {t : Nat} (h : exec i s = .next (s.delay t l)) : DelayRule i s t (s.goto l) := by
  refine ⟨fun ht => ?_, fun ht => ?_⟩ <;> rw [h, State.delay]
  · rw [if_pos ((s.elapsed_iff t).2 ht)]
  · rw [if_neg (mt (s.elapsed_iff t).1 (Nat.not_le.2 ht))]

/-- A step that runs BusyWait follows its rule (R189). -/
theorem BusyWaitRule.of_busyWait (h : exec i s = .next (s.busyWait l)) :
    BusyWaitRule i s fun u => u.goto l := by
  refine ⟨fun ha hl => ?_, fun ha hl ht => ?_, fun ha hl ht => ?_, fun ha => .of_delay ?_⟩ <;>
    rw [h, State.busyWait]
  · rw [if_pos ha, if_pos hl]
  · rw [if_pos ha, if_neg hl, if_pos ((s.elapsed_iff _).2 ht)]
  · rw [if_pos ha, if_neg hl, if_neg (mt (s.elapsed_iff _).1 (Nat.not_le.2 ht))]
  · rw [if_neg (by simp [ha])]

end Rules

section Drain

variable {s : State} {b : Byte} {q : List Byte} (l : Label)

/-- Drain leaves an empty queue at once (R188). -/
theorem State.drain_of_empty (h : s.rxq = []) : s.drain l = s.goto l := by
  rw [State.drain, h]

/-- Drain gives up at its cap (R188). -/
theorem State.drain_of_capped (h : s.rxq = b :: q) (ht : Config.tDrainCap ≤ s.tmr.toNat) :
    s.drain l = ({ s with drainTo := true } : State).goto l := by
  simp only [State.drain, h, if_pos ((s.elapsed_iff _).2 ht)]

/-- Drain discards a byte (R188). -/
theorem State.drain_of_byte (h : s.rxq = b :: q) (ht : s.tmr.toNat < Config.tDrainCap) :
    s.drain l = { s with rxq := q } := by
  simp only [State.drain, h, if_neg (mt (s.elapsed_iff _).1 (Nat.not_le.2 ht))]

end Drain

section Baud

variable {s : State}

theorem State.switchToProgBaud_of
    (h : s.smt = 3#2 ∧ s.autobaudEn = true ∧ s.configuredBaud ≠ Config.progBaud) :
    s.switchToProgBaud = s.baudReq Config.progBaud :=
  if_pos h

theorem State.switchToProgBaud_of_not
    (h : ¬ (s.smt = 3#2 ∧ s.autobaudEn = true ∧ s.configuredBaud ≠ Config.progBaud)) : s.switchToProgBaud = s :=
  if_neg h

theorem State.restoreBaud_of (h : s.smt ≠ 3#2 ∧ s.autobaudEn = true ∧ s.curBaud ≠ s.configuredBaud) :
    s.restoreBaud = s.baudReq s.configuredBaud :=
  if_pos h

theorem State.restoreBaud_of_not (h : ¬ (s.smt ≠ 3#2 ∧ s.autobaudEn = true ∧ s.curBaud ≠ s.configuredBaud)) :
    s.restoreBaud = s :=
  if_neg h

end Baud

theorem State.recordMode_of_top {s : State} (h : s.ret = none) :
    s.recordMode = succeeded { s with lastMode := s.smt.setWidth 3 } := by
  simp only [State.recordMode, h, State.succeed_eq_succeeded]

theorem State.recordMode_of_call {s : State} {l : Label} (h : s.ret = some l) :
    s.recordMode = ({ s with lastMode := s.smt.setWidth 3, ret := none } : State).goto l := by
  simp only [State.recordMode, h]

/-- The micro-program, label by label (R181). -/
theorem exec_setMode (mc : BitVec 2) (s : State) :
    (s.upc = .sm1 → exec (.setMode mc) s = .next (s.delay s.par.tPre .sm2)) ∧
    (s.upc = .sm2 → exec (.setMode mc) s = .next ((s.pins s.smt).goto .sm3)) ∧
    (s.upc = .sm3 → exec (.setMode mc) s = .next (s.switchToProgBaud.goto .sm4)) ∧
    (s.upc = .sm4 → exec (.setMode mc) s = .next (s.restoreBaud.goto .sm5)) ∧
    (s.upc = .sm5 → exec (.setMode mc) s = .next (s.delay s.par.tPost .sm6)) ∧
    (s.upc = .sm6 → exec (.setMode mc) s = .next (s.drain .sm7)) ∧
    (s.upc = .sm7 → exec (.setMode mc) s = .next (s.busyWait .sm8)) ∧
    (s.upc = .sm8 → exec (.setMode mc) s = .next s.recordMode) := by
  refine ⟨?_, ?_, ?_, ?_, ?_, ?_, ?_, ?_⟩ <;> intro hu <;> simp only [exec, execSetMode, State.setModeStep, hu]

/-! ### The whole command -/

/-- Acceptance of a legal word latches and starts its command (R251). -/
theorem State.accept_of_decode {s : State} {v : Word} {i : Instr} (h : decode s.par.payloadMax v = .ok i) :
    s.accept v = (s.latch v).start i := by
  simp only [State.accept, h]

theorem State.start_withAgenda (s : State) (a : List Move) (i : Instr) :
    (s.withAgenda a).start i = (s.start i).withAgenda a := by
  cases i <;> rfl

/-- An idle block accepts the command that the host writes (R251). -/
theorem step_writeCmd {s : State} {i : Instr} {rest : List Move} (hw : i.WellFormed s.par.payloadMax)
    (hb : s.busy = false) (ha : s.agenda = writeCmd i :: rest) :
    step s = .next (((s.latch (encode i)).start i).withAgenda rest) := by
  have accepted : (s.withAgenda rest).accept (encode i) = ((s.latch (encode i)).start i).withAgenda rest :=
    (State.accept_of_decode (s := s.withAgenda rest) (decode_encode hw)).trans
      (State.start_withAgenda (s.latch (encode i)) rest i)
  have written : (s.withAgenda rest).hostWrite 0x000#12 (encode i) = (s.withAgenda rest).accept (encode i) :=
    if_neg (by simp [State.withAgenda, hb])
  rw [step_of_agenda_cons ha]
  exact congrArg Host.Outcome.next (written.trans accepted)

/-- What SM3 and SM4 together do to BAUDLOG and CUR_BAUD: at most one of them requests a rate (R184). -/
theorem State.baud_of_setMode (s : State) :
    if s.smt = 3#2 ∧ s.autobaudEn = true ∧ s.configuredBaud ≠ Config.progBaud then
      s.switchToProgBaud.restoreBaud.baudlog = s.baudlog ++ [Config.progBaud] ∧
        s.switchToProgBaud.restoreBaud.curBaud = Config.progBaud
    else if s.smt ≠ 3#2 ∧ s.autobaudEn = true ∧ s.curBaud ≠ s.configuredBaud then
      s.switchToProgBaud.restoreBaud.baudlog = s.baudlog ++ [s.configuredBaud] ∧
        s.switchToProgBaud.restoreBaud.curBaud = s.configuredBaud
    else
      s.switchToProgBaud.restoreBaud.baudlog = s.baudlog ∧ s.switchToProgBaud.restoreBaud.curBaud = s.curBaud := by
  split
  · next h =>
    rw [State.switchToProgBaud_of h, State.restoreBaud_of_not (s := s.baudReq _) fun c => c.1 h.1]
    exact ⟨rfl, rfl⟩
  · next h =>
    rw [State.switchToProgBaud_of_not h]
    split
    · next h' => rw [State.restoreBaud_of h']; exact ⟨rfl, rfl⟩
    · next h' => rw [State.restoreBaud_of_not h']; exact ⟨rfl, rfl⟩

end Sys2Proof.Machine

open Sys2Proof Sys2Proof.Machine

/-- Settles O44: each micro-step's operation, at each of its conditions. -/
theorem setModeSteps : Obligations.SetModeSteps := by
  intro mc s
  obtain ⟨x1, x2, x3, x4, x5, x6, x7, x8⟩ := exec_setMode mc s
  refine ⟨fun hu => .of_delay (x1 hu), fun hu => ⟨_, _, x2 hu, s.modeCode_pins s.smt⟩, fun hu => ?_, fun hu => ?_,
    fun hu => .of_delay (x5 hu), fun hu => ⟨fun hq => ?_, fun b q hq ht => ?_, fun b q hq ht => ?_⟩,
    fun hu => .of_busyWait (x7 hu), fun hu => ⟨fun hr => ?_, fun l hr => ?_⟩⟩
  · rw [x3 hu]
    split
    · next h => rw [State.switchToProgBaud_of h]; rfl
    · next h => rw [State.switchToProgBaud_of_not h]; rfl
  · rw [x4 hu]
    split
    · next h => rw [State.restoreBaud_of h]; rfl
    · next h => rw [State.restoreBaud_of_not h]; rfl
  · rw [x6 hu, State.drain_of_empty _ hq]; rfl
  · rw [x6 hu, State.drain_of_capped _ hq ht]; rfl
  · rw [x6 hu, State.drain_of_byte _ hq ht]
  · rw [x8 hu, State.recordMode_of_top hr]
  · rw [x8 hu, State.recordMode_of_call hr]

/-- Settles O45: a command that calls SET_MODE runs its step at SM1 to SM8, as SET_MODE itself does. -/
theorem calledSetModeIsTheSame : Obligations.CalledSetModeIsTheSame := by
  intro i s mc hi hu
  have hs : s.upc.isSetMode = true := by
    revert hu
    cases s.upc <;> decide
  have hcalls : i.returns.isSome = true := by
    rcases hi with hi | ⟨key, rfl⟩
    · revert i
      decide
    · rfl
  rw [exec_of_isSetMode hs (.inr hcalls), exec_of_isSetMode hs (.inl ⟨mc, rfl⟩)]

/-- Settles O46: acceptance, and then the micro-program from SM1 to completion. -/
theorem setModeRunsToTheEnd : Obligations.SetModeRunsToTheEnd := by
  intro s mc rest _ hb hr hq ha
  have accepted := step_writeCmd (i := .setMode mc) trivial hb ha
  have ran := Does.setMode (s := (s.latch (encode (.setMode mc))).start (.setMode mc)) (i := .setMode mc)
    (fun _ _ => rfl) (decode_encode (i := .setMode mc) trivial) rfl rfl hr hq rest
  rw [State.recordMode_of_top rfl] at ran
  exact ⟨_, (run_add (run_succ accepted 0) _).trans ran, rfl, s.modeCode_pins mc,
    State.baud_of_setMode ((s.latch (encode (.setMode mc))).start (.setMode mc))⟩

end

section
/-! The configuration session's micro-steps (42_config_session.md R210 to R214): the waiting primitives as the rules the
statements name, and each command's own steps, label by label. -/

namespace Sys2Proof

/-- The command byte of SAVE_PARAMS (R127). -/
theorem Persistence.command_eq (p : Persistence) : p.command = if p = .permanent then 0xC0#8 else 0xC2#8 := by
  cases p <;> rfl

end Sys2Proof

namespace Sys2Proof.Machine

/-! ### The waiting primitives -/

section Rules

variable {i : Instr} {s : State} {l : Label}

/-- A step that runs WaitFor(RxAvail() > 0, t) follows its rule (R190). -/
theorem WaitRxRule.of_waitRx {t : Nat} {leave : Bool → State} (h : exec i s = .next (s.waitRx t leave)) :
    WaitRxRule i s t leave := by
  refine ⟨fun hq => ?_, fun hq ht => ?_, fun hq ht => ?_⟩ <;> rw [h, State.waitRx]
  · rw [if_pos hq]
  · rw [if_neg (not_not.2 hq), if_pos ((s.elapsed_iff t).2 ht)]
  · rw [if_neg (not_not.2 hq), if_neg (mt (s.elapsed_iff t).1 (Nat.not_le.2 ht))]

/-- A step that runs TxWrite follows its rule (R96). -/
theorem TxWriteRule.of_txWrite {n : Nat} (h : exec i s = .next (s.txWrite n l)) :
    TxWriteRule i s n fun u => u.goto l := by
  refine ⟨fun hn => ?_, fun hn hp ha => ?_, fun hn hp => ?_, fun hn hp w ha => ?_⟩ <;> rw [h, State.txWrite]
  · rw [if_pos hn]
  · simp only [if_neg (Nat.ne_of_gt hn), hp, ha, Bool.false_eq_true, if_false]
  · rw [if_neg (Nat.ne_of_gt hn), if_pos hp]
  · simp only [if_neg (Nat.ne_of_gt hn), hp, ha, Bool.false_eq_true, if_false]

/-- A step that runs RxRead follows its rule (R99). -/
theorem RxReadRule.of_rxRead {base n : Nat} (h : exec i s = .next (s.rxRead base n l)) :
    RxReadRule i s base n fun u => u.goto l := by
  refine ⟨fun hg => ?_, fun hg b q hq => ?_, fun hg hq ht => ?_, fun hg hq ht => ?_⟩ <;> rw [h, State.rxRead]
  · rw [if_pos hg]
  · simp only [if_neg hg, hq]
  · simp only [if_neg hg, hq, if_pos ((s.elapsed_iff _).2 ht)]
  · simp only [if_neg hg, hq, if_neg (mt (s.elapsed_iff _).1 (Nat.not_le.2 ht))]

end Rules

/-! ### The last steps -/

/-- complete with the outcome that an error code names: OK = 1 exactly for code 0 (R250, R252). -/
def State.report (s : State) (err : BitVec 4) : State := s.complete (decide (err = 0#4)) err

theorem State.report_zero (s : State) : s.report 0#4 = succeeded s := rfl

theorem State.report_error (s : State) {err : BitVec 4} (h : err ≠ 0#4) : s.report err = failed s err := by
  rw [State.report, decide_eq_false h]
  rfl

/-- The outcome code of READ_PARAMS: a short read, tested first, or a reply that does not echo 0xC1 (R211, R212). -/
def State.readOutcome (s : State) : BitVec 4 :=
  if s.rcount.toNat < 9 then 1#4 else if s.mem.read frameBase ≠ 0xC1#8 then 2#4 else 0#4

/-- The outcome code of a command that sends and reads back `n` bytes (R213, R214). -/
def State.countOutcome (s : State) (n : BitVec 16) : BitVec 4 := if s.wcount ≠ n ∨ s.rcount ≠ n then 1#4 else 0#4

/-- The three outcomes of READ_PARAMS. -/
theorem State.report_readOutcome (s : State) :
    (s.rcount.toNat < 9 → s.report s.readOutcome = failed s 1#4) ∧
      (9 ≤ s.rcount.toNat → s.mem.read frameBase ≠ 0xC1#8 → s.report s.readOutcome = failed s 2#4) ∧
      (9 ≤ s.rcount.toNat → s.mem.read frameBase = 0xC1#8 → s.report s.readOutcome = succeeded s) := by
  refine ⟨fun hr => ?_, fun hr hc => ?_, fun hr hc => ?_⟩ <;> rw [State.readOutcome]
  · rw [if_pos hr, s.report_error (by decide)]
  · rw [if_neg (Nat.not_lt.2 hr), if_pos hc, s.report_error (by decide)]
  · rw [if_neg (Nat.not_lt.2 hr), if_neg (not_not.2 hc), s.report_zero]

/-- The two outcomes of a command that judges its counts. -/
theorem State.report_countOutcome (s : State) (n : BitVec 16) :
    (s.wcount ≠ n ∨ s.rcount ≠ n → s.report (s.countOutcome n) = failed s 1#4) ∧
      (s.wcount = n → s.rcount = n → s.report (s.countOutcome n) = succeeded s) := by
  refine ⟨fun h => ?_, fun hw hr => ?_⟩ <;> rw [State.countOutcome]
  · rw [if_pos h, s.report_error (by decide)]
  · rw [if_neg (by simp [hw, hr]), s.report_zero]

/-! ### The micro-programs, label by label -/

/-- READ_PARAMS (R211). -/
theorem exec_readParams (s : State) :
    (s.upc = .rp1 → exec .readParams s = .next ((s.stageFrame 0xC1#8).goto .rp2)) ∧
    (s.upc = .rp2 → exec .readParams s = .next (s.callSetMode 3#2 .rp3)) ∧
    (s.upc = .rp3 → exec .readParams s = .next (s.txWrite 3 .rp4)) ∧
    (s.upc = .rp4 → exec .readParams s = .next (s.delay s.par.tRdSettle .rp5)) ∧
    (s.upc = .rp5 → exec .readParams s = .next (s.rxRead frameBase 9 .rp6)) ∧
    (s.upc = .rp6 → exec .readParams s = .next (s.unpackFrame.goto .rp7)) ∧
    (s.upc = .rp7 → exec .readParams s = .next (s.callSetMode 0#2 .rp8)) ∧
    (s.upc = .rp8 → exec .readParams s = .next (s.report s.readOutcome)) := by
  refine ⟨?_, ?_, ?_, ?_, ?_, ?_, ?_, ?_⟩ <;> intro hu <;> simp only [exec, execReadParams, hu]
  unfold State.readOutcome
  split_ifs <;> rfl

/-- SAVE_PARAMS (R213). -/
theorem exec_saveParams (p : Persistence) (s : State) :
    (s.upc = .sp1 → exec (.saveParams p) s = .next ((s.stageFrame p.command).goto .sp2)) ∧
    (s.upc = .sp2 → exec (.saveParams p) s = .next (s.callSetMode 3#2 .sp3)) ∧
    (s.upc = .sp3 → exec (.saveParams p) s = .next (s.delay s.par.tSavePre .sp4)) ∧
    (s.upc = .sp4 → exec (.saveParams p) s = .next (s.txWrite 9 .sp5)) ∧
    (s.upc = .sp5 → exec (.saveParams p) s = .next (s.waitRx Config.tSaveResp fun _ => s.goto .sp6)) ∧
    (s.upc = .sp6 → exec (.saveParams p) s = .next (s.rxRead frameBase 9 .sp7)) ∧
    (s.upc = .sp7 → exec (.saveParams p) s = .next (s.callSetMode 0#2 .sp8)) ∧
    (s.upc = .sp8 → exec (.saveParams p) s = .next (s.report (s.countOutcome 9#16))) := by
  refine ⟨?_, ?_, ?_, ?_, ?_, ?_, ?_, ?_⟩ <;> intro hu <;> simp only [exec, execSaveParams, hu]
  unfold State.countOutcome
  split_ifs <;> rfl

/-- SET_CRYPT_KEY (R214). -/
theorem exec_setCryptKey (key : BitVec 16) (s : State) :
    (s.upc = .ck1 → exec (.setCryptKey key) s =
      .next (({ s with mem := s.mem.writeBytes xbufBase (cryptCommand key) } : State).goto .ck2)) ∧
    (s.upc = .ck2 → exec (.setCryptKey key) s = .next (s.callSetMode 3#2 .ck3)) ∧
    (s.upc = .ck3 → exec (.setCryptKey key) s = .next (s.delay s.par.tSavePre .ck4)) ∧
    (s.upc = .ck4 → exec (.setCryptKey key) s = .next (s.txWrite 5 .ck5)) ∧
    (s.upc = .ck5 → exec (.setCryptKey key) s = .next (s.rxRead rbufBase 5 .ck6)) ∧
    (s.upc = .ck6 → exec (.setCryptKey key) s = .next (s.callSetMode 0#2 .ck7)) ∧
    (s.upc = .ck7 → exec (.setCryptKey key) s = .next (s.report (s.countOutcome 5#16))) := by
  refine ⟨?_, ?_, ?_, ?_, ?_, ?_, ?_⟩ <;> intro hu <;> simp only [exec, execSetCryptKey, hu]
  unfold State.countOutcome
  split_ifs <;> rfl

/-! ### Frames and keys -/

/-- The staged frame, byte by byte (R210). -/
def Image.frame (img : Image) (c : Byte) : List Byte := c :: Config.cfgStartAddr :: 0x06#8 :: img.body

/-- The crypt-set command holds the key's bytes, high byte first (R89, R143). -/
theorem cryptCommand_eq (key : BitVec 16) :
    cryptCommand key =
      [0xC0#8, 0x06#8, 0x02#8, BitVec.ofNat 8 (key.toNat / 256), BitVec.ofNat 8 (key.toNat % 256)] := by
  have high : key.extractLsb' 8 8 = BitVec.ofNat 8 (key.toNat / 256) :=
    BitVec.eq_of_toNat_eq (by simp [Nat.shiftRight_eq_div_pow])
  have low : key.extractLsb' 0 8 = BitVec.ofNat 8 (key.toNat % 256) := BitVec.eq_of_toNat_eq (by simp)
  rw [cryptCommand, high, low]

/-- Unpacking a whole body gives each register its byte (R165, R211). -/
theorem Image.regbyte_unpackBody (img : Image) (body : Reg → Byte) (r : Reg) :
    (img.unpackBody body).regbyte r = body r := by
  cases r <;> simp [Image.unpackBody, Reg.all, Image.regbyte_setReg_self, Image.regbyte_setReg_of_ne]

/-- RP6 gives each register its byte of FRAME (R211). -/
theorem State.unpackFrame_regbyte (s : State) (r : Reg) :
    s.unpackFrame.img.regbyte r = s.mem.read (frameBase + 3 + r.id.toNat) := by
  rw [State.unpackFrame_img, Image.regbyte_unpackBody]

end Sys2Proof.Machine

open Sys2Proof Sys2Proof.Machine

/-- Settles O48: each micro-step's operation; RP6's image by its registers, RP8's outcomes in their order. -/
theorem readParamsSteps : Obligations.ReadParamsSteps := by
  intro s
  obtain ⟨x1, x2, x3, x4, x5, x6, x7, x8⟩ := exec_readParams s
  obtain ⟨short, echo, full⟩ := s.report_readOutcome
  exact ⟨x1, x2, fun hu => .of_txWrite (x3 hu), fun hu => .of_delay (x4 hu), fun hu => .of_rxRead (x5 hu),
    fun hu => ⟨s.unpackFrame.img, x6 hu, s.unpackFrame_regbyte⟩, x7,
    fun hu => ⟨fun hr => (x8 hu).trans (congrArg _ (short hr)), fun hr hc => (x8 hu).trans (congrArg _ (echo hr hc)),
      fun hr hc => (x8 hu).trans (congrArg _ (full hr hc))⟩⟩

/-- Settles O49: each micro-step's operation, and the two outcomes of SP8. -/
theorem saveParamsSteps : Obligations.SaveParamsSteps := by
  intro p s
  obtain ⟨x1, x2, x3, x4, x5, x6, x7, x8⟩ := exec_saveParams p s
  obtain ⟨short, full⟩ := s.report_countOutcome 9#16
  rw [p.command_eq] at x1
  exact ⟨x1, x2, fun hu => .of_delay (x3 hu), fun hu => .of_txWrite (x4 hu), fun hu => .of_waitRx (x5 hu),
    fun hu => .of_rxRead (x6 hu), x7,
    fun hu => ⟨fun h => (x8 hu).trans (congrArg _ (short h)), fun hw hr => (x8 hu).trans (congrArg _ (full hw hr))⟩⟩

/-- Settles O50: each micro-step's operation, and the two outcomes of CK7. -/
theorem setCryptKeySteps : Obligations.SetCryptKeySteps := by
  intro key s
  obtain ⟨x1, x2, x3, x4, x5, x6, x7⟩ := exec_setCryptKey key s
  obtain ⟨short, full⟩ := s.report_countOutcome 5#16
  rw [cryptCommand_eq] at x1
  exact ⟨x1, x2, fun hu => .of_delay (x3 hu), fun hu => .of_txWrite (x4 hu), fun hu => .of_rxRead (x5 hu), x6,
    fun hu => ⟨fun h => (x7 hu).trans (congrArg _ (short h)), fun hw hr => (x7 hu).trans (congrArg _ (full hw hr))⟩⟩

end

section
/-! The end of a configuration command (42_config_session.md R215, R216): BUSY falls in its last step only, which
completes, behind the call of SET_MODE(0). -/

namespace Sys2Proof.Machine

/-! ### What keeps BUSY -/

section Busy

variable (s : State) (l : Label)

@[simp] theorem State.delay_busy (t : Nat) : (s.delay t l).busy = s.busy := by
  rcases s.delay_cases t l with ⟨-, e⟩ | ⟨-, e⟩ <;> rw [e]
  rfl

theorem State.waitRx_busy (t : Nat) {leave : Bool → State} (h : ∀ b, (leave b).busy = s.busy) :
    (s.waitRx t leave).busy = s.busy := by
  rcases s.waitRx_cases t leave with ⟨-, e⟩ | ⟨-, -, e⟩ | ⟨-, -, e⟩ <;> rw [e]
  · exact h _
  · exact h _

@[simp] theorem State.drain_busy : (s.drain l).busy = s.busy := by
  rcases s.drain_cases l with ⟨-, e⟩ | ⟨_, _, -, -, e⟩ | ⟨_, _, -, -, e⟩ <;> rw [e] <;> rfl

@[simp] theorem State.busyWait_busy : (s.busyWait l).busy = s.busy := by
  rcases s.busyWait_cases l with e | ⟨-, e⟩ | e <;> rw [e] <;> rfl

@[simp] theorem State.rxRead_busy (base n : Nat) : (s.rxRead base n l).busy = s.busy := by
  rcases s.rxRead_cases base n l with e | ⟨_, _, -, -, e⟩ | e <;> rw [e]
  rfl

@[simp] theorem State.txWrite_busy (n : Nat) : (s.txWrite n l).busy = s.busy := by
  rcases s.txWrite_cases n l with ⟨-, e⟩ | ⟨-, -, e⟩ | ⟨_, -, -, -, e⟩ | ⟨-, -, -, e⟩ <;> rw [e] <;> rfl

end Busy

/-- A called SET_MODE completes nothing: SM8 returns (R51, R185). -/
theorem State.setModeStep_busy {s t : State} {l : Label} (hr : s.ret = some l) (h : s.setModeStep = .next t) :
    t.busy = s.busy := by
  unfold State.setModeStep at h
  split at h <;> cases h
  · exact s.delay_busy _ _
  · rfl
  · rcases s.switchToProgBaud_cases with ⟨-, -, e⟩ | e <;> rw [e] <;> rfl
  · rcases s.restoreBaud_cases with ⟨-, -, e⟩ | e <;> rw [e] <;> rfl
  · exact s.delay_busy _ _
  · exact s.drain_busy _
  · exact s.busyWait_busy _
  · rw [State.recordMode_of_call hr]
    rfl

/-- Within SET_MODE, a command that calls it has a step to return to (R51). -/
theorem State.Runs.called {s : State} {i : Instr} (hr : s.Runs i) (hs : s.upc.isSetMode = true)
    (hi : i.returns.isSome = true) : ∃ l, s.ret = some l := by
  unfold State.Runs at hr
  rw [if_pos hs] at hr
  rcases hr with ⟨mc, rfl, -⟩ | ⟨p, -, ⟨h, -⟩ | ⟨h, -⟩⟩
  · simp [Instr.returns] at hi
  · exact ⟨_, h⟩
  · exact ⟨_, h⟩

/-! ### The last step -/

/-- The step from `s` to `t` is the last one of a configuration command, which completes. -/
def Closes (s t : State) : Prop := s.upc.afterSession = true ∧ ∃ err, t = s.report err

/-- A configuration command's own step keeps BUSY or is its last. -/
theorem exec_own_closes {i : Instr} {s t : State} (hi : i.returns.isSome = true) (ho : i.owns s.upc = true)
    (h : exec i s = .next t) : t.busy = s.busy ∨ Closes s t := by
  have answer : ∀ {u : State}, exec i s = .next u → t = u := fun e => Host.Outcome.next.inj (h.symm.trans e)
  cases i with
  | readParams =>
    obtain ⟨x1, x2, x3, x4, x5, x6, x7, x8⟩ := exec_readParams s
    simp only [Instr.owns, List.mem_cons, List.not_mem_nil, or_false, decide_eq_true_eq] at ho
    rcases ho with hu | hu | hu | hu | hu | hu | hu | hu
    · exact .inl (answer (x1 hu) ▸ rfl)
    · exact .inl (answer (x2 hu) ▸ rfl)
    · exact .inl (answer (x3 hu) ▸ s.txWrite_busy ..)
    · exact .inl (answer (x4 hu) ▸ s.delay_busy ..)
    · exact .inl (answer (x5 hu) ▸ s.rxRead_busy ..)
    · exact .inl (answer (x6 hu) ▸ rfl)
    · exact .inl (answer (x7 hu) ▸ rfl)
    · exact .inr ⟨hu ▸ rfl, _, answer (x8 hu)⟩
  | saveParams p =>
    obtain ⟨x1, x2, x3, x4, x5, x6, x7, x8⟩ := exec_saveParams p s
    simp only [Instr.owns, List.mem_cons, List.not_mem_nil, or_false, decide_eq_true_eq] at ho
    rcases ho with hu | hu | hu | hu | hu | hu | hu | hu
    · exact .inl (answer (x1 hu) ▸ rfl)
    · exact .inl (answer (x2 hu) ▸ rfl)
    · exact .inl (answer (x3 hu) ▸ s.delay_busy ..)
    · exact .inl (answer (x4 hu) ▸ s.txWrite_busy ..)
    · exact .inl (answer (x5 hu) ▸ s.waitRx_busy _ fun _ => rfl)
    · exact .inl (answer (x6 hu) ▸ s.rxRead_busy ..)
    · exact .inl (answer (x7 hu) ▸ rfl)
    · exact .inr ⟨hu ▸ rfl, _, answer (x8 hu)⟩
  | setCryptKey key =>
    obtain ⟨x1, x2, x3, x4, x5, x6, x7⟩ := exec_setCryptKey key s
    simp only [Instr.owns, List.mem_cons, List.not_mem_nil, or_false, decide_eq_true_eq] at ho
    rcases ho with hu | hu | hu | hu | hu | hu | hu
    · exact .inl (answer (x1 hu) ▸ rfl)
    · exact .inl (answer (x2 hu) ▸ rfl)
    · exact .inl (answer (x3 hu) ▸ s.delay_busy ..)
    · exact .inl (answer (x4 hu) ▸ s.txWrite_busy ..)
    · exact .inl (answer (x5 hu) ▸ s.rxRead_busy ..)
    · exact .inl (answer (x6 hu) ▸ rfl)
    · exact .inr ⟨hu ▸ rfl, _, answer (x7 hu)⟩
  | _ => simp [Instr.returns] at hi

/-- A step of a configuration command, its calls of SET_MODE among them, keeps BUSY or is its last. -/
theorem exec_closes {i : Instr} {s t : State} (hi : i.returns.isSome = true) (hr : s.Runs i)
    (h : exec i s = .next t) : t.busy = s.busy ∨ Closes s t := by
  cases hs : s.upc.isSetMode
  · exact exec_own_closes hi (hr.own hs).2 h
  · rw [exec_of_isSetMode hs (.inr hi)] at h
    obtain ⟨l, hl⟩ := hr.called hs hi
    exact .inl (State.setModeStep_busy hl h)

/-- No host access lowers BUSY (R84, R251). -/
theorem State.access_busy {s : State} (hb : s.busy = true) (x : Access) : (s.access x).busy = true := by
  rcases s.access_any x with ⟨b, e⟩ | ⟨v, h, -⟩ | e | ⟨a, v, -, -, -, e⟩ | ⟨a, v, -, -, h, -⟩ | ⟨a, v, -, -, h, -⟩ |
    ⟨a, v, -, -, h, -⟩
  · rw [e]; exact hb
  · simp [hb] at h
  · rw [e]; exact hb
  · rw [e]; exact hb
  · simp [hb] at h
  · simp [hb] at h
  · simp [hb] at h

/-- The block's step from a state with another agenda. -/
theorem exec_of_withAgenda {i : Instr} {s t : State} {a : List Move} (h : exec i (s.withAgenda a) = .next t) :
    ∃ t', exec i s = .next t' ∧ t = t'.withAgenda a := by
  rw [exec_withAgenda] at h
  cases hx : exec i s with
  | next t' => exact ⟨t', rfl, by simpa [hx, nextWithAgenda] using h.symm⟩
  | fault _ | refused _ => simp [hx, nextWithAgenda] at h

/-- BUSY falls by reset or in a step of the running command (R252, R280). -/
theorem step_lowers_busy {s t : State} (h : step s = .next t) (hb : s.busy = true) (ht : t.busy = false)
    (hr : ¬ ∃ d rest, s.agenda = .reset d :: rest) :
    ∃ i t' a, s.upc ≠ .idle ∧ decode s.par.payloadMax s.cmdlat = .ok i ∧ exec i s = .next t' ∧
      t = t'.withAgenda a := by
  have kept : t.busy ≠ true := by simp [ht]
  have same : ∀ {u : State}, (u = s ∨ ∃ rest, u = { s with agenda := rest }) → u.busy = true := by
    rintro u (rfl | ⟨rest, rfl⟩) <;> exact hb
  cases step_stepCase h with
  | block u t i _ hu hn hd hx =>
    rcases hu with rfl | ⟨rest, rfl⟩
    · exact ⟨i, t, t.agenda, hn, hd, hx, rfl⟩
    · obtain ⟨t', hx', e⟩ := exec_of_withAgenda (s := s) (a := rest) hx
      exact ⟨i, t', rest, hn, hd, hx', e⟩
  | access u t x _ hu e =>
    obtain ⟨a, p, rfl⟩ := hu
    exact absurd (e ▸ State.access_busy (s := { s with agenda := a, prog := p }) hb x) kept
  | poll a p b => exact absurd hb kept
  | reset rest d ha => exact absurd ⟨d, rest, ha⟩ hr
  | tick u t hu e =>
    rw [e, u.tick_eq_setTmr] at kept
    exact absurd (same hu) kept
  | env rest q l hq => exact absurd hb kept
  | tx u t w dr _ hu e =>
    have hu := same hu
    refine absurd ?_ kept
    rcases u.txAnswer_cases w with e' | ⟨_, _, -, -, -, e'⟩ <;> rw [e, e'] <;> exact hu
  | baud rest t e =>
    refine absurd ?_ kept
    rcases State.takeBaud_cases { s with agenda := rest } with e' | ⟨-, e'⟩ <;> rw [e, e'] <;> exact hb

/-- The configuration commands call SET_MODE (R211, R213, R214). -/
theorem Instr.returns_of_config {i : Instr}
    (hi : i ∈ [.readParams, .saveParams .permanent, .saveParams .temporary] ∨ ∃ key, i = .setCryptKey key) :
    i.returns.isSome = true := by
  rcases hi with hi | ⟨key, rfl⟩
  · revert i
    decide
  · rfl

/-- At the last step of a configuration command the mode is NORMAL and the pins show it (R215). -/
theorem State.ModeInv.afterSession_normal {s : State} (h : s.ModeInv) (hl : s.upc.afterSession = true) :
    s.lastMode = 0#3 ∧ s.modeCode = 0#2 := by
  have ends : ∀ l : Label, l.afterSession = true → l.afterPins = false := by rintro ⟨⟩ <;> decide
  have shown := h.pinsShow (ends _ hl)
  obtain ⟨-, -, hmode, -⟩ := h
  exact ⟨hmode hl, shown.modeCode_eq (hmode hl)⟩

end Sys2Proof.Machine

open Sys2Proof Sys2Proof.Machine

/-- Settles O33: the completing step is the command's last, which changes the outcome only, and the invariant gives the
mode there. -/
theorem configCommandsEndInNormal : Obligations.ConfigCommandsEndInNormal := by
  intro s t i hinv h hb ht hr hd hi
  obtain ⟨j, u, a, hn, hd', hx, rfl⟩ := step_lowers_busy h hb ht hr
  obtain rfl : j = i := by simpa [hd'] using hd
  obtain ⟨-, hrun⟩ := hinv.running hn hd
  have kept : u.busy ≠ s.busy := fun e => by simpa [hb] using e.symm.trans ht
  obtain ⟨hl, err, rfl⟩ := (exec_closes (Instr.returns_of_config hi) hrun hx).resolve_left kept
  obtain ⟨hmode, hpins⟩ := hinv.mode.afterSession_normal hl
  exact ⟨rfl, hmode, hpins, rfl, rfl⟩

end

section
/-! Whole configuration sessions on a quiet link (42_config_session.md R211 to R216): each phase of a session leads from
the label it begins at to the next one, and the phases compose. -/

namespace Sys2Proof.Machine

/-! ### Phases -/

/-- What a session's phases write beside what they are for: the FSM's own state and the baud rate. -/
structure Control where
  upc : Label
  ret : Option Label
  smt : BitVec 2
  tmr : Word
  got : BitVec 16
  baudlog : List Word
  curBaud : Word

/-- A state with this control. -/
def State.withControl (v : State) (c : Control) : State :=
  { v with
    upc := c.upc, ret := c.ret, smt := c.smt, tmr := c.tmr, got := c.got, baudlog := c.baudlog, curBaud := c.curBaud }

/-- Label `l` has just been entered, outside any call, by a state that is `v` but for its control (R51, R99, R186). -/
def State.EnteredAt (v : State) (l : Label) (s : State) : Prop :=
  ∃ c : Control, s = v.withControl c ∧ c.upc = l ∧ c.ret = none ∧ (v.timedAt l = true → c.tmr = 0#32) ∧
    (l.reads = true → c.got = 0#16)

theorem State.EnteredAt.goto (v : State) (l : Label) {c : Control} (h : c.ret = none) :
    v.EnteredAt l ((v.withControl c).goto l) :=
  ⟨{ c with upc := l, tmr := if v.timedAt l then 0 else c.tmr, got := if l.reads then 0 else c.got }, rfl, rfl, h,
    fun ht => if_pos ht, fun hr => if_pos hr⟩

/-- A phase: the moves lead from `v`, entered at label `k`, to `w`, entered at label `l`. -/
def Leads (ms : List Move) (v : State) (k : Label) (w : State) (l : Label) : Prop :=
  ∀ s, v.EnteredAt k s → ∃ t, Does ms s t ∧ w.EnteredAt l t

theorem Leads.trans {ms ms' : List Move} {u v w : State} {j k l : Label} (h : Leads ms u j v k)
    (h' : Leads ms' v k w l) : Leads (ms ++ ms') u j w l := by
  intro s hs
  obtain ⟨t, d, ht⟩ := h s hs
  obtain ⟨t', d', ht'⟩ := h' t ht
  exact ⟨t', d.trans d', ht'⟩

/-- Command `i` runs with parameters `p` on a quiet link, with no TxWrite pending or answered. -/
structure State.Session (p : Params) (i : Instr) (v : State) : Prop where
  par : v.par = p
  decoded : decode p.payloadMax v.cmdlat = .ok i
  quiet : v.Quiet
  notOffered : v.txpend = false
  notAnswered : v.txAns = none

/-- The state behind SET_MODE(mc), but for its control. -/
def State.inMode (v : State) (mc : BitVec 2) : State := { v.pins mc with lastMode := mc.setWidth 3 }

/-- The state behind a TxWrite of which `w` bytes went out. -/
def State.sent (v : State) (base : Nat) (w : BitVec 16) : State :=
  { v with wcount := w, txlog := v.txlog ++ (v.mem.bytes base w.toNat).map fun b => (b, v.modeCode) }

/-- The state behind an RxRead in which `reply` arrived. -/
def State.received (v : State) (base : Nat) (reply : List Byte) : State :=
  { v with mem := v.mem.writeBytes base reply, rcount := BitVec.ofNat 16 reply.length }

/-- The state behind the staging of `bs` in the buffer at `base`. -/
def State.stageBytes (v : State) (base : Nat) (bs : List Byte) : State := { v with mem := v.mem.writeBytes base bs }

/-- The state behind a session's exchange in PROGRAM: `bs` staged at `out`, `w` bytes of it sent, and `reply` received
at `back` (R211, R213, R214). -/
def State.exchanged (v : State) (out : Nat) (bs : List Byte) (w : BitVec 16) (back : Nat)
    (reply : List Byte) : State :=
  (((v.stageBytes out bs).inMode 3#2).sent out w).received back reply

section

variable {p : Params} {i : Instr} {v : State} (h : v.Session p i)
include h

/-! What a phase is for leaves the session as it is. -/

theorem State.Session.stageBytes (base : Nat) (bs : List Byte) : (v.stageBytes base bs).Session p i :=
  ⟨h.par, h.decoded, h.quiet, h.notOffered, h.notAnswered⟩

theorem State.Session.inMode (mc : BitVec 2) : (v.inMode mc).Session p i :=
  ⟨h.par, h.decoded, h.quiet, h.notOffered, h.notAnswered⟩

theorem State.Session.sent (base : Nat) (w : BitVec 16) : (v.sent base w).Session p i :=
  ⟨h.par, h.decoded, h.quiet, h.notOffered, h.notAnswered⟩

theorem State.Session.received (base : Nat) (reply : List Byte) : (v.received base reply).Session p i :=
  ⟨h.par, h.decoded, h.quiet, h.notOffered, h.notAnswered⟩

theorem State.Session.unpackFrame : v.unpackFrame.Session p i :=
  ⟨h.par, h.decoded, h.quiet, h.notOffered, h.notAnswered⟩

end

@[simp] theorem State.stageBytes_img (v : State) (base : Nat) (bs : List Byte) :
    (v.stageBytes base bs).img = v.img := rfl
@[simp] theorem State.inMode_img (v : State) (mc : BitVec 2) : (v.inMode mc).img = v.img := rfl
@[simp] theorem State.inMode_mem (v : State) (mc : BitVec 2) : (v.inMode mc).mem = v.mem := rfl
@[simp] theorem State.inMode_txlog (v : State) (mc : BitVec 2) : (v.inMode mc).txlog = v.txlog := rfl
@[simp] theorem State.sent_img (v : State) (base : Nat) (w : BitVec 16) : (v.sent base w).img = v.img := rfl
@[simp] theorem State.received_img (v : State) (base : Nat) (reply : List Byte) :
    (v.received base reply).img = v.img := rfl

theorem State.exchanged_img (v : State) (out : Nat) (bs : List Byte) (w : BitVec 16) (back : Nat)
    (reply : List Byte) : (v.exchanged out bs w back reply).img = v.img := by
  simp [State.exchanged]

theorem State.exchanged_mem (v : State) (out : Nat) (bs : List Byte) (w : BitVec 16) (back : Nat)
    (reply : List Byte) :
    (v.exchanged out bs w back reply).mem = (v.mem.writeBytes out bs).writeBytes back reply :=
  rfl

theorem State.inMode_modeCode (v : State) (mc : BitVec 2) : (v.inMode mc).modeCode = mc := v.modeCode_pins mc

/-- The moves through a call of SET_MODE. -/
def callMoves (p : Params) : List Move := Move.block :: setModeMoves p

section Phases

variable {p : Params} {i : Instr} {v : State} {k l : Label} (hv : v.Session p i) (hk : k ≠ .idle)
include hv hk

/-- A micro-step that moves on (R102). -/
theorem Leads.plain {f : State → State} {w : State} (hx : ∀ s : State, s.upc = k → exec i s = .next ((f s).goto l))
    (hf : ∀ c, f (v.withControl c) = w.withControl c) : Leads [.block] v k w l := by
  rintro _ ⟨c, rfl, rfl, hr, -, -⟩
  obtain rfl := hv.par
  exact ⟨_, .block hk hv.decoded (hx _ rfl), hf c ▸ .goto w l hr⟩

/-- A last step (R252). -/
theorem Leads.report {outcome : State → BitVec 4}
    (hx : ∀ s : State, s.upc = k → exec i s = .next (s.report (outcome s)))
    (ho : ∀ c, outcome (v.withControl c) = outcome v) : Leads [.block] v k (v.report (outcome v)) .idle := by
  rintro _ ⟨c, rfl, rfl, hr, -, -⟩
  obtain rfl := hv.par
  exact ⟨_, .block hk hv.decoded (hx _ rfl),
    ho c ▸ ⟨{ c with upc := .idle, ret := none }, rfl, rfl, rfl, nofun, nofun⟩⟩

/-- A call of SET_MODE, and its return (R51, R181). -/
theorem Leads.call {mc : BitVec 2} (hi : i.returns.isSome = true) (hp : p.Reachable)
    (hx : ∀ s : State, s.upc = k → exec i s = .next (s.callSetMode mc l)) :
    Leads (callMoves p) v k (v.inMode mc) l := by
  rintro _ ⟨c, rfl, hu, -, -, -⟩
  obtain rfl := hv.par
  have called := Does.block (s := v.withControl c) (hu ▸ hk :) hv.decoded (hx _ hu)
  have ran := Does.setMode (s := (v.withControl c).callSetMode mc l) (fun u hs => exec_of_isSetMode hs (.inr hi))
    hv.decoded rfl rfl hp hv.quiet
  rw [State.recordMode_of_call rfl] at ran
  exact ⟨_, called.trans ran, .goto (v.inMode mc) l (c := ⟨.sm8, none, mc, _, _, _, _⟩) rfl⟩

/-- A Delay (R187). -/
theorem Leads.delay {t : Nat} (ht : t < 2 ^ 32) (htimed : v.timedAt k = true)
    (hx : ∀ s : State, s.upc = k → s.par = p → exec i s = .next (s.delay t l)) :
    Leads (ticks t ++ [.block]) v k v l := by
  rintro _ ⟨c, rfl, rfl, hr, hz, -⟩
  obtain rfl := hv.par
  exact ⟨_, Does.delay (s := v.withControl c) hk htimed hv.decoded (hz htimed) ht hx,
    .goto v l (c := { c with tmr := BitVec.ofNat 32 t }) hr⟩

/-- A TxWrite of which `w` bytes go out (R96). -/
theorem Leads.txWrite {base n : Nat} {w : BitVec 16} (hn : 0 < n) (hw : w.toNat ≤ n)
    (hprim : v.primAt k = some (.txWrite base n))
    (hx : ∀ s : State, s.upc = k → exec i s = .next (s.txWrite n l)) :
    Leads (txMoves w) v k (v.sent base w) l := by
  rintro _ ⟨c, rfl, rfl, hr, -, -⟩
  obtain rfl := hv.par
  exact ⟨_, Does.txWrite (s := v.withControl c) hk hv.decoded hprim hn hv.notOffered hv.notAnswered w hw
    fun u hu _ => hx u hu, .goto (v.sent base w) l hr⟩

/-- An RxRead in which `reply` arrives (R99). -/
theorem Leads.rxRead {base n : Nat} {reply : List Byte} (hp : p.rxTimeout < 2 ^ 32) (hl : reply.length ≤ n)
    (hn : n < 2 ^ 16) (htimed : v.timedAt k = true) (hreads : k.reads = true)
    (hx : ∀ s : State, s.upc = k → exec i s = .next (s.rxRead base n l)) :
    Leads (rxMoves p n reply) v k (v.received base reply) l := by
  rintro _ ⟨c, rfl, rfl, hr, hz, hg⟩
  obtain rfl := hv.par
  have ran := Does.rxReadAll (s := v.withControl c) hk hv.decoded htimed hv.quiet.1 (hg hreads) (hz htimed) hp
    (fun u hu _ => hx u hu) reply hl hn
  exact ⟨_, ran, .goto (v.received base reply) l (c := { c with tmr := _, got := _ }) hr⟩

end Phases

/-! ### SAVE_PARAMS's wait and read -/

/-- SP5 gives up after T_SAVE_RESP ticks of silence (R190, R213). -/
theorem Leads.silence {p : Params} {per : Persistence} {v : State} (hv : v.Session p (.saveParams per)) :
    Leads (ticks 5000 ++ [.block]) v .sp5 v .sp6 := by
  rintro _ ⟨c, rfl, hu, hr, hz, -⟩
  obtain rfl := hv.par
  obtain ⟨-, -, -, -, x5, -⟩ := exec_saveParams per (v.withControl { c with tmr := 5000#32 })
  obtain ⟨-, leaves, -⟩ := WaitRxRule.of_waitRx (x5 hu)
  have hz : (v.withControl c).tmr = 0#32 := hz rfl
  have hk : c.upc ≠ .idle := by simp [hu]
  have htimed : v.timedAt c.upc = true := by rw [hu]; rfl
  have waited := Does.ticks (s := v.withControl c) htimed 5000 (by simp [hz])
  rw [hz, BitVec.zero_add] at waited
  exact ⟨_, waited.trans (Does.block hk hv.decoded (leaves hv.quiet.1 (Nat.le_refl 5000))),
    .goto v .sp6 (c := { c with tmr := 5000#32 }) hr⟩

/-- SP5 and SP6 up to the first byte: it ends the wait, and is read (R99, R190). -/
theorem Does.firstByte {per : Persistence} {v : State} {c : Control} (hv : v.Session v.par (.saveParams per))
    (hu : c.upc = .sp5) (b : Byte) :
    Does [.rxByte b, .block, .block] (v.withControl c)
      ((v.stageBytes frameBase [b]).withControl { c with upc := .sp6, tmr := 0#32, got := 1#16 }) := by
  have hq : v.rxq = [] := hv.quiet.1
  let queued : State := { v with rxq := [b] }
  let reading : Control := { c with upc := .sp6, tmr := 0#32, got := 0#16 }
  have arrives : Does [.rxByte b] (v.withControl c) (queued.withControl c) := by
    have d := Does.rxByte (v.withControl c) b
    rwa [show (v.withControl c).rxq = [] from hq] at d
  obtain ⟨-, -, -, -, x5, -⟩ := exec_saveParams per (queued.withControl c)
  obtain ⟨-, -, -, -, -, x6, -⟩ := exec_saveParams per (queued.withControl reading)
  obtain ⟨leaves, -⟩ := WaitRxRule.of_waitRx (x5 hu)
  obtain ⟨-, takes, -⟩ := RxReadRule.of_rxRead (x6 rfl)
  have hk : c.upc ≠ .idle := by simp [hu]
  have left := Does.block (s := queued.withControl c) hk hv.decoded (leaves (List.cons_ne_nil b []))
  have taken := Does.block (s := queued.withControl reading) nofun hv.decoded
    (takes (show (0#16).toNat ≠ 9 by decide) b [] rfl)
  have d := arrives.trans (left.trans taken)
  rw [← hq] at d
  exact d

/-- SAVE_PARAMS's wait for a reply and its read (R213). -/
theorem Leads.saveReply {p : Params} {per : Persistence} {v : State} (hv : v.Session p (.saveParams per))
    (hp : p.rxTimeout < 2 ^ 32) {reply : List Byte} (hl : reply.length ≤ 9) :
    Leads (saveReplyMoves p reply) v .sp5 (v.received frameBase reply) .sp7 := by
  have x6 : ∀ s : State, s.upc = .sp6 → exec (.saveParams per) s = .next (s.rxRead frameBase 9 .sp7) := fun s =>
    have ⟨_, _, _, _, _, x6, _⟩ := exec_saveParams per s
    x6
  cases reply with
  | nil => exact (Leads.silence hv).trans (.rxRead (k := .sp6) hv nofun hp hl (by decide) rfl rfl x6)
  | cons b bs =>
    rintro _ ⟨c, rfl, hu, hr, -, -⟩
    obtain rfl := hv.par
    have first := Does.firstByte hv hu b
    let begun : Control := { c with upc := .sp6, tmr := 0#32, got := 1#16 }
    have others := Does.rxRead (s := (v.stageBytes frameBase [b]).withControl begun) (base := frameBase) (n := 9)
      nofun hv.decoded rfl hv.quiet.1 rfl hp (fun u hu _ => x6 u hu) bs ((Nat.add_comm 1 _).trans_le hl) (by decide)
    have counted : begun.got + BitVec.ofNat 16 bs.length = BitVec.ofNat 16 (b :: bs).length := by
      rw [List.length_cons, BitVec.ofNat_add, BitVec.add_comm]
    refine ⟨_, first.trans others, ?_⟩
    rw [show ((v.stageBytes frameBase [b]).withControl begun).got = begun.got from rfl, counted]
    exact .goto (v.received frameBase (b :: bs)) .sp7 (c := { c with tmr := _, got := _ }) hr

/-! ### Whole sessions -/

theorem Instr.wellFormed_of_returns {i : Instr} (hi : i.returns.isSome = true) (pm : Nat) : i.WellFormed pm := by
  cases i <;> trivial

/-- The command has completed with this outcome, the rest of the agenda is left, and the state is `w` as far as a host
and the environment see it. -/
structure Ended (w : State) (err : BitVec 4) (rest : List Move) (t : State) : Prop where
  agenda : t.agenda = rest
  busy : t.busy = false
  done : t.done = true
  err : t.err = err
  ok : t.ok = true ↔ t.err = 0#4
  img : t.img = w.img
  modeCode : t.modeCode = w.modeCode
  lastMode : t.lastMode = w.lastMode
  wcount : t.wcount = w.wcount
  rcount : t.rcount = w.rcount
  mem : t.mem = w.mem
  txlog : t.txlog = w.txlog
  rxq : t.rxq = w.rxq
  result : t.result = w.result
  rssiValid : t.rssiValid = w.rssiValid
  overrun : t.overrun = w.overrun

theorem Ended.report (w : State) (err : BitVec 4) (c : Control) (rest : List Move) :
    Ended w err rest (((w.report err).withControl c).withAgenda rest) := by
  constructor
  case ok => exact decide_eq_true_iff
  all_goals rfl

/-- A session that leads from acceptance to an outcome runs to the end (R251, R252). -/
theorem run_of_leads {i : Instr} {s w : State} {err : BitVec 4} {ms rest : List Move} (hi : i.returns.isSome = true)
    (hinv : s.Inv) (hb : s.busy = false) (ha : s.agenda = writeCmd i :: (ms ++ rest))
    (h : Leads ms (s.latch (encode i)) i.firstLabel (w.report err) .idle) :
    ∃ k t, Sys2Proof.core.run k s = .next t ∧ Ended w err rest t := by
  have hu : s.upc = .idle := hinv.idle_iff.2 hb
  have hrun := hinv.run
  rw [State.RunInv, if_pos hu] at hrun
  obtain ⟨-, hret⟩ := hrun
  have started : (s.latch (encode i)).start i = (s.latch (encode i)).goto i.firstLabel := by
    rcases (s.latch (encode i)).start_cases i with ⟨mc, rfl, -⟩ | ⟨-, e⟩
    · simp [Instr.returns] at hi
    · exact e
  have accepted := step_writeCmd (Instr.wellFormed_of_returns hi _) hb ha
  rw [started] at accepted
  obtain ⟨t, d, c, rfl, -⟩ := h _ (.goto (s.latch (encode i)) i.firstLabel
    (c := ⟨s.upc, s.ret, s.smt, s.tmr, s.got, s.baudlog, s.curBaud⟩) hret)
  exact ⟨_, _, (run_add (run_succ accepted 0) _).trans (d rest), .report w err c rest⟩

/-- Acceptance begins a session (R251). -/
theorem State.Session.latch {i : Instr} {s : State} (hi : i.returns.isSome = true) (hinv : s.Inv)
    (hb : s.busy = false) (hq : s.Quiet) : (s.latch (encode i)).Session s.par i := by
  have c := hinv.calm (by rw [hinv.idle_iff.2 hb]; rfl)
  exact ⟨rfl, decode_encode (Instr.wellFormed_of_returns hi _), hq, c.notOffered, c.notAnswered⟩

/-! ### What a session leaves behind -/

section Exchange

variable {v : State} (hm : v.mem.Wf) {out back : Nat} {bs reply : List Byte} {w : BitVec 16}
include hm

/-- What was staged is what went out, in mode 3 (R216). -/
theorem State.exchanged_txlog (hw : w.toNat ≤ bs.length) :
    (v.exchanged out bs w back reply).txlog = v.txlog ++ (bs.take w.toNat).map fun b => (b, 3#2) := by
  change v.txlog ++ ((v.mem.writeBytes out bs).bytes out w.toNat).map
    (fun b => (b, ((v.stageBytes out bs).inMode 3#2).modeCode)) = _
  rw [State.inMode_modeCode, Memory.bytes_writeBytes hm out hw]

/-- The reply stands in its buffer (R99). -/
theorem State.exchanged_read_reply {k : Nat} (hk : k < reply.length) :
    (v.exchanged out bs w back reply).mem.read (back + k) = (reply[k]?).getD 0 := by
  rw [State.exchanged_mem, Memory.read_writeBytes (Memory.wf_writeBytes hm out bs), if_pos (by omega),
    Nat.add_sub_cancel_left, List.getD_eq_getElem?_getD]
  rfl

/-- What was staged stands where no byte of the reply came (R99, R212 a). -/
theorem State.exchanged_read_staged {k : Nat} (hk : k < bs.length)
    (hb : ¬ (back ≤ out + k ∧ out + k < back + reply.length)) :
    (v.exchanged out bs w back reply).mem.read (out + k) = (bs[k]?).getD 0 := by
  rw [State.exchanged_mem, Memory.read_writeBytes (Memory.wf_writeBytes hm out bs), if_neg hb,
    Memory.read_writeBytes hm, if_pos (by omega), Nat.add_sub_cancel_left, List.getD_eq_getElem?_getD]
  rfl

/-- A reply into the buffer sent from lies over what was staged (R212 a). -/
theorem State.exchanged_read_overlaid {k : Nat} (hk : k < bs.length) :
    (v.exchanged out bs w out reply).mem.read (out + k) = (reply[k]?).getD ((bs[k]?).getD 0) := by
  by_cases h : k < reply.length
  · rw [State.exchanged_read_reply hm h, List.getElem?_eq_getElem h]
    rfl
  · rw [State.exchanged_read_staged hm hk (by omega), List.getElem?_eq_none (Nat.not_lt.1 h)]
    rfl

/-- Memory outside what was staged and received is as it was. -/
theorem State.exchanged_read_frame {a : Nat} (ho : ¬ (out ≤ a ∧ a < out + bs.length))
    (hb : ¬ (back ≤ a ∧ a < back + reply.length)) :
    (v.exchanged out bs w back reply).mem.read a = v.mem.read a := by
  rw [State.exchanged_mem, Memory.read_writeBytes (Memory.wf_writeBytes hm out bs), if_neg hb,
    Memory.read_writeBytes hm, if_neg ho]

end Exchange

/-- A count of at most nine bytes fits its register (R43). -/
theorem toNat_count {reply : List Byte} (hl : reply.length ≤ 9) :
    (BitVec.ofNat 16 reply.length).toNat = reply.length := by
  rw [BitVec.toNat_ofNat]
  omega

/-- What no phase of a session is for: RXQ, RESULT, RSSI_VALID and OVERRUN. -/
structure SameAside (v w : State) : Prop where
  rxq : w.rxq = v.rxq
  result : w.result = v.result
  rssiValid : w.rssiValid = v.rssiValid
  overrun : w.overrun = v.overrun

theorem SameAside.trans {u v w : State} (h : SameAside u v) (h' : SameAside v w) : SameAside u w :=
  ⟨h'.rxq.trans h.rxq, h'.result.trans h.result, h'.rssiValid.trans h.rssiValid, h'.overrun.trans h.overrun⟩

section Aside

variable (v : State) (base : Nat) (bs : List Byte) (w : BitVec 16) (mc : BitVec 2)

theorem SameAside.stageBytes : SameAside v (v.stageBytes base bs) := ⟨rfl, rfl, rfl, rfl⟩

theorem SameAside.inMode : SameAside v (v.inMode mc) := ⟨rfl, rfl, rfl, rfl⟩

theorem SameAside.sent : SameAside v (v.sent base w) := ⟨rfl, rfl, rfl, rfl⟩

theorem SameAside.received : SameAside v (v.received base bs) := ⟨rfl, rfl, rfl, rfl⟩

theorem SameAside.unpackFrame : SameAside v v.unpackFrame := ⟨rfl, rfl, rfl, rfl⟩

theorem SameAside.exchanged (back : Nat) (reply : List Byte) : SameAside v (v.exchanged base bs w back reply) :=
  (SameAside.stageBytes v base bs).trans (.inMode _ _) |>.trans (.sent _ _ _) |>.trans (.received _ _ _)

end Aside

/-- Behind READ_PARAMS (R211). -/
def State.afterRead (v : State) (w : BitVec 16) (reply : List Byte) : State :=
  (v.exchanged frameBase (v.img.frame 0xC1#8) w frameBase reply).unpackFrame.inMode 0#2

/-- Behind SAVE_PARAMS (R213). -/
def State.afterSave (v : State) (p : Persistence) (w : BitVec 16) (reply : List Byte) : State :=
  (v.exchanged frameBase (v.img.frame p.command) w frameBase reply).inMode 0#2

/-- Behind SET_CRYPT_KEY (R214). -/
def State.afterKey (v : State) (key w : BitVec 16) (reply : List Byte) : State :=
  (v.exchanged xbufBase (cryptCommand key) w rbufBase reply).inMode 0#2

/-! ### The three commands, phase by phase -/

/-- The moves through READ_PARAMS (R211). -/
def readMoves (p : Params) (w : BitVec 16) (reply : List Byte) : List Move :=
  [Move.block] ++ callMoves p ++ txMoves w ++ (ticks p.tRdSettle ++ [Move.block]) ++ rxMoves p 9 reply ++
    [Move.block] ++ callMoves p ++ [Move.block]

/-- The moves through SAVE_PARAMS (R213). -/
def saveMoves (p : Params) (w : BitVec 16) (reply : List Byte) : List Move :=
  [Move.block] ++ callMoves p ++ (ticks p.tSavePre ++ [Move.block]) ++ txMoves w ++ saveReplyMoves p reply ++
    callMoves p ++ [Move.block]

/-- The moves through SET_CRYPT_KEY (R214). -/
def keyMoves (p : Params) (w : BitVec 16) (reply : List Byte) : List Move :=
  [Move.block] ++ callMoves p ++ (ticks p.tSavePre ++ [Move.block]) ++ txMoves w ++ rxMoves p 5 reply ++
    callMoves p ++ [Move.block]

section Sessions

variable {p : Params} {v : State} {w : BitVec 16} {reply : List Byte} (hp : p.Reachable)
include hp

/-- READ_PARAMS, from RP1 to its outcome (R211). -/
theorem Leads.readParams (hv : v.Session p .readParams) (hw : w.toNat ≤ 3) (hl : reply.length ≤ 9) :
    Leads (readMoves p w reply) v .rp1 ((v.afterRead w reply).report (v.afterRead w reply).readOutcome) .idle := by
  have x := exec_readParams
  simp only [forall_and] at x
  obtain ⟨x1, x2, x3, x4, x5, x6, x7, x8⟩ := x
  have ⟨_, _, _, _, hsettle, _, _, htimeout⟩ := hp
  have hstaged := hv.stageBytes frameBase (v.img.frame 0xC1#8)
  have hprogram := hstaged.inMode 3#2
  have hsent := hprogram.sent frameBase w
  have hreceived := hsent.received frameBase reply
  have hunpacked := hreceived.unpackFrame
  have hnormal := hunpacked.inMode 0#2
  have staged : Leads [.block] v .rp1 (v.stageBytes frameBase (v.img.frame 0xC1#8)) .rp2 :=
    .plain hv (by decide) x1 fun _ => rfl
  have called := Leads.call hstaged (by decide) rfl hp x2
  have sent := Leads.txWrite hprogram (by decide) (by decide) hw rfl x3
  have settled := Leads.delay hsent (by decide) hsettle rfl fun s hu hs => hs ▸ x4 s hu
  have received := Leads.rxRead hsent (by decide) htimeout hl (by decide) rfl rfl x5
  have unpacked := Leads.plain hreceived (by decide) x6 (w := State.unpackFrame _) fun _ => rfl
  have returned := Leads.call hunpacked (by decide) rfl hp x7
  have judged := Leads.report hnormal (by decide) x8 fun _ => rfl
  exact staged.trans called |>.trans sent |>.trans settled |>.trans received |>.trans unpacked |>.trans returned
    |>.trans judged

/-- SAVE_PARAMS, from SP1 to its outcome (R213). -/
theorem Leads.saveParams {per : Persistence} (hv : v.Session p (.saveParams per)) (hw : w.toNat ≤ 9)
    (hl : reply.length ≤ 9) :
    Leads (saveMoves p w reply) v .sp1
      ((v.afterSave per w reply).report ((v.afterSave per w reply).countOutcome 9#16)) .idle := by
  have x := exec_saveParams per
  simp only [forall_and] at x
  obtain ⟨x1, x2, x3, x4, -, -, x7, x8⟩ := x
  have ⟨_, _, _, _, _, hpre, _, htimeout⟩ := hp
  have hstaged := hv.stageBytes frameBase (v.img.frame per.command)
  have hprogram := hstaged.inMode 3#2
  have hsent := hprogram.sent frameBase w
  have hreceived := hsent.received frameBase reply
  have hnormal := hreceived.inMode 0#2
  have staged : Leads [.block] v .sp1 (v.stageBytes frameBase (v.img.frame per.command)) .sp2 :=
    .plain hv (by decide) x1 fun _ => rfl
  have called := Leads.call hstaged (by decide) rfl hp x2
  have waited := Leads.delay hprogram (by decide) hpre rfl fun s hu hs => hs ▸ x3 s hu
  have sent := Leads.txWrite hprogram (by decide) (by decide) hw rfl x4
  have received := Leads.saveReply hsent htimeout hl
  have returned := Leads.call hreceived (by decide) rfl hp x7
  have judged := Leads.report hnormal (by decide) x8 fun _ => rfl
  exact staged.trans called |>.trans waited |>.trans sent |>.trans received |>.trans returned |>.trans judged

/-- SET_CRYPT_KEY, from CK1 to its outcome (R214). -/
theorem Leads.setCryptKey {key : BitVec 16} (hv : v.Session p (.setCryptKey key)) (hw : w.toNat ≤ 5)
    (hl : reply.length ≤ 5) :
    Leads (keyMoves p w reply) v .ck1
      ((v.afterKey key w reply).report ((v.afterKey key w reply).countOutcome 5#16)) .idle := by
  have x := exec_setCryptKey key
  simp only [forall_and] at x
  obtain ⟨x1, x2, x3, x4, x5, x6, x7⟩ := x
  have ⟨_, _, _, _, _, hpre, _, htimeout⟩ := hp
  have hstaged := hv.stageBytes xbufBase (cryptCommand key)
  have hprogram := hstaged.inMode 3#2
  have hsent := hprogram.sent xbufBase w
  have hreceived := hsent.received rbufBase reply
  have hnormal := hreceived.inMode 0#2
  have staged : Leads [.block] v .ck1 (v.stageBytes xbufBase (cryptCommand key)) .ck2 :=
    .plain hv (by decide) x1 fun _ => rfl
  have called := Leads.call hstaged (by decide) rfl hp x2
  have waited := Leads.delay hprogram (by decide) hpre rfl fun s hu hs => hs ▸ x3 s hu
  have sent := Leads.txWrite hprogram (by decide) (by decide) hw rfl x4
  have received := Leads.rxRead hsent (by decide) htimeout hl (by decide) rfl rfl x5
  have returned := Leads.call hreceived (by decide) rfl hp x6
  have judged := Leads.report hnormal (by decide) x7 fun _ => rfl
  exact staged.trans called |>.trans waited |>.trans sent |>.trans received |>.trans returned |>.trans judged

end Sessions

/-! ### Outcomes -/

/-- The counts of a save or key session decide its outcome (R213, R214). -/
theorem State.exchanged_countOutcome (v : State) {out back : Nat} {bs reply : List Byte} {w : BitVec 16} {n : Nat}
    (hn : n ≤ 9) (hl : reply.length ≤ 9) :
    ((v.exchanged out bs w back reply).inMode 0#2).countOutcome (BitVec.ofNat 16 n) =
      if w = BitVec.ofNat 16 n ∧ reply.length = n then 0#4 else 1#4 := by
  have counted : BitVec.ofNat 16 reply.length = BitVec.ofNat 16 n ↔ reply.length = n := by
    rw [← BitVec.toNat_inj, BitVec.toNat_ofNat, BitVec.toNat_ofNat]
    omega
  change (if w ≠ BitVec.ofNat 16 n ∨ BitVec.ofNat 16 reply.length ≠ BitVec.ofNat 16 n then 1#4 else 0#4) = _
  simp only [ne_eq, ← not_and_or, ite_not, counted]

@[simp] theorem Image.length_frame (img : Image) (c : Byte) : (img.frame c).length = 9 := rfl

/-- The short form of a frame (R211). -/
theorem Image.take_frame (img : Image) (c : Byte) {n : Nat} (h : n ≤ 3) :
    (img.frame c).take n = [c, 0x00#8, 0x06#8].take n :=
  List.take_append_of_le_length (l₁ := [c, 0x00#8, 0x06#8]) (l₂ := img.body) h

/-- The body of a frame holds each register at its place (R210). -/
theorem Image.frame_body (img : Image) (c : Byte) (r : Reg) :
    ((img.frame c)[3 + r.id.toNat]?).getD 0 = img.regbyte r := by
  cases r <;> rfl

/-- The image has the received body bytes; the others are as they were staged from it (R212 a). -/
theorem State.afterRead_regbyte {v : State} (hm : v.mem.Wf) (w : BitVec 16) (reply : List Byte) (r : Reg) :
    (v.afterRead w reply).img.regbyte r = (reply[3 + r.id.toNat]?).getD (v.img.regbyte r) := by
  have inBody : 3 + r.id.toNat < 9 := by cases r <;> decide
  have unpacked := (v.exchanged frameBase (v.img.frame 0xC1#8) w frameBase reply).unpackFrame_regbyte r
  rw [Nat.add_assoc, State.exchanged_read_overlaid hm inBody, Image.frame_body] at unpacked
  exact unpacked

/-- The reply decides the outcome of a read: its length, then its first byte (R212). -/
theorem State.afterRead_readOutcome {v : State} (hm : v.mem.Wf) {w : BitVec 16} {reply : List Byte}
    (hl : reply.length ≤ 9) :
    (v.afterRead w reply).readOutcome =
      if reply.length < 9 then 1#4 else if reply[0]? = some 0xC1#8 then 0#4 else 2#4 := by
  have count : (v.afterRead w reply).rcount.toNat = reply.length := toNat_count hl
  have echo := State.exchanged_read_overlaid (out := frameBase) (bs := v.img.frame 0xC1#8) (w := w) (reply := reply) hm
    (Nat.zero_lt_succ 8)
  rw [Nat.add_zero] at echo
  rw [State.readOutcome, count, State.afterRead, State.inMode_mem, State.unpackFrame_mem, echo]
  split
  · rfl
  · next h =>
    have first := List.getElem?_eq_getElem (show 0 < reply.length by omega)
    simp only [first, Option.getD_some, Option.some_inj, ne_eq, ite_not]

end Sys2Proof.Machine

open Sys2Proof Sys2Proof.Machine

/-- Settles O51: acceptance, the session's phases from RP1 to RP8, and what they leave. -/
theorem readParamsRunsToTheEnd : Obligations.ReadParamsRunsToTheEnd := by
  intro s w reply rest hinv hb hp hq hw hl ha
  have hm : (s.latch (encode .readParams)).mem.Wf := hinv.memory.1
  obtain ⟨k, t, hrun, e⟩ := run_of_leads (rest := rest) rfl hinv hb (by rw [ha]; simp [readMoves, callMoves])
    (Leads.readParams hp (.latch rfl hinv hb hq) hw hl)
  have aside : SameAside (s.latch (encode .readParams)) ((s.latch (encode .readParams)).afterRead w reply) :=
    (SameAside.exchanged ..).trans (.unpackFrame _) |>.trans (.inMode _ _)
  refine ⟨k, t, hrun, e.agenda, e.busy, e.done, e.err.trans (State.afterRead_readOutcome hm hl), e.ok, e.wcount,
    (congrArg BitVec.toNat e.rcount).trans (toNat_count hl), e.lastMode, e.modeCode.trans (State.inMode_modeCode _ _),
    e.rxq.trans (aside.rxq.trans hq.1), ?_, fun r => ?_, fun k hk => ?_, fun k hk h9 => ?_, fun a h => ?_,
    e.result.trans aside.result, e.rssiValid.trans aside.rssiValid, e.overrun.trans aside.overrun⟩
  · rw [e.txlog, State.afterRead, State.inMode_txlog, State.unpackFrame_txlog,
      State.exchanged_txlog hm (hw.trans (by simp)), Image.take_frame _ _ hw]
    rfl
  · rw [e.img, State.afterRead_regbyte hm]
    rfl
  · rw [e.mem, State.afterRead, State.inMode_mem, State.unpackFrame_mem]
    exact State.exchanged_read_reply hm hk
  · rw [e.mem, State.afterRead, State.inMode_mem, State.unpackFrame_mem]
    exact State.exchanged_read_staged hm h9 (by omega)
  · rw [e.mem, State.afterRead, State.inMode_mem, State.unpackFrame_mem]
    exact State.exchanged_read_frame hm h fun hr => h ⟨hr.1, hr.2.trans_le (Nat.add_le_add_left hl _)⟩

/-- Settles O52: acceptance, the session's phases from SP1 to SP8, and what they leave. -/
theorem saveParamsRunsToTheEnd : Obligations.SaveParamsRunsToTheEnd := by
  intro s p w reply rest hinv hb hp hq hw hl ha
  have hm : (s.latch (encode (.saveParams p))).mem.Wf := hinv.memory.1
  obtain ⟨k, t, hrun, e⟩ := run_of_leads (i := .saveParams p) (rest := rest) rfl hinv hb
    (by rw [ha]; simp [saveMoves, callMoves]) (Leads.saveParams hp (.latch rfl hinv hb hq) hw hl)
  have aside : SameAside (s.latch (encode (.saveParams p))) ((s.latch (encode (.saveParams p))).afterSave p w reply) :=
    (SameAside.exchanged ..).trans (.inMode _ _)
  rw [← p.command_eq]
  refine ⟨k, t, hrun, e.agenda, e.busy, e.done, e.err.trans (State.exchanged_countOutcome _ (Nat.le_refl 9) hl), e.ok,
    e.wcount, (congrArg BitVec.toNat e.rcount).trans (toNat_count hl), e.lastMode,
    e.modeCode.trans (State.inMode_modeCode _ _), e.rxq.trans (aside.rxq.trans hq.1), ?_, ?_, fun k hk => ?_,
    fun k hk h9 => ?_, fun a h => ?_, e.result.trans aside.result, e.rssiValid.trans aside.rssiValid,
    e.overrun.trans aside.overrun⟩
  · rw [e.txlog, State.afterSave, State.inMode_txlog, State.exchanged_txlog hm hw]
    rfl
  · rw [e.img, State.afterSave, State.inMode_img, State.exchanged_img]
    rfl
  · rw [e.mem, State.afterSave, State.inMode_mem]
    exact State.exchanged_read_reply hm hk
  · rw [e.mem, State.afterSave, State.inMode_mem]
    exact State.exchanged_read_staged hm h9 (by omega)
  · rw [e.mem, State.afterSave, State.inMode_mem]
    exact State.exchanged_read_frame hm h fun hr => h ⟨hr.1, hr.2.trans_le (Nat.add_le_add_left hl _)⟩

/-- Settles O53: acceptance, the session's phases from CK1 to CK7, and what they leave. -/
theorem setCryptKeyRunsToTheEnd : Obligations.SetCryptKeyRunsToTheEnd := by
  intro s key w reply rest hinv hb hp hq hw hl ha
  have hm : (s.latch (encode (.setCryptKey key))).mem.Wf := hinv.memory.1
  have h9 : reply.length ≤ 9 := hl.trans (by decide)
  obtain ⟨k, t, hrun, e⟩ := run_of_leads (i := .setCryptKey key) (rest := rest) rfl hinv hb
    (by rw [ha]; simp [keyMoves, callMoves]) (Leads.setCryptKey hp (.latch rfl hinv hb hq) hw hl)
  have aside : SameAside (s.latch (encode (.setCryptKey key)))
      ((s.latch (encode (.setCryptKey key))).afterKey key w reply) := (SameAside.exchanged ..).trans (.inMode _ _)
  rw [← cryptCommand_eq]
  refine ⟨k, t, hrun, e.agenda, e.busy, e.done, e.err.trans (State.exchanged_countOutcome _ (by decide) h9), e.ok,
    e.wcount, (congrArg BitVec.toNat e.rcount).trans (toNat_count h9), e.lastMode,
    e.modeCode.trans (State.inMode_modeCode _ _), e.rxq.trans (aside.rxq.trans hq.1), ?_, ?_, fun k hk => ?_,
    fun k hk => ?_, fun a ho hb => ?_, e.result.trans aside.result, e.rssiValid.trans aside.rssiValid,
    e.overrun.trans aside.overrun⟩
  · rw [e.txlog, State.afterKey, State.inMode_txlog, State.exchanged_txlog hm hw]
    rfl
  · rw [e.img, State.afterKey, State.inMode_img, State.exchanged_img]
    rfl
  · rw [e.mem, State.afterKey, State.inMode_mem]
    exact State.exchanged_read_reply hm hk
  · rw [e.mem, State.afterKey, State.inMode_mem]
    exact State.exchanged_read_staged hm hk (by simp only [xbufBase, rbufBase]; omega)
  · rw [e.mem, State.afterKey, State.inMode_mem]
    exact State.exchanged_read_frame hm ho hb

end

section
/-! The data session's micro-steps (43_data_session.md R231 to R233): each command's steps, label by label. -/

namespace Sys2Proof.Machine

/-! ### The last steps -/

/-- The outcome code of a transfer judged by its count: SHORT_IO unless all the bytes asked for went or came (R231 to
R233, R250). -/
def countCode (count asked : BitVec 16) : BitVec 4 := if count ≠ asked then 1#4 else 0#4

theorem State.report_countCode (s : State) (count asked : BitVec 16) :
    (count ≠ asked → s.report (countCode count asked) = failed s 1#4) ∧
      (count = asked → s.report (countCode count asked) = succeeded s) := by
  refine ⟨fun h => ?_, fun h => ?_⟩ <;> rw [countCode]
  · rw [if_pos h, s.report_error (by decide)]
  · rw [if_neg (not_not.2 h), s.report_zero]

/-- QR6's samples, taken only from a whole reply (R144, R233). -/
def State.sampleRssi (s : State) : State :=
  { s with
    noise := if s.rcount = 5#16 then s.mem.read (rbufBase + 3) else s.noise
    lastRssi := if s.rcount = 5#16 then s.mem.read (rbufBase + 4) else s.lastRssi }

theorem State.sampleRssi_of_whole {s : State} (h : s.rcount = 5#16) :
    s.sampleRssi = { s with noise := s.mem.read (rbufBase + 3), lastRssi := s.mem.read (rbufBase + 4) } := by
  rw [State.sampleRssi, if_pos h, if_pos h]

theorem State.sampleRssi_of_short {s : State} (h : s.rcount ≠ 5#16) : s.sampleRssi = s := by
  rw [State.sampleRssi, if_neg h, if_neg h]

/-! ### RECEIVE's poll and its RSSI byte -/

/-- DR3 with the RSSI byte is a WaitFor (R232). -/
theorem State.rssiPoll_of_enabled {s : State} (l : Label) (h : s.img.rssiByteEn = 1#1) :
    s.rssiPoll l = s.waitRx 5 fun timedOut => ({ s with wto := timedOut } : State).goto l :=
  if_pos h

/-- DR3 without the RSSI byte waits for nothing (R232). -/
theorem State.rssiPoll_of_disabled {s : State} (l : Label) (h : s.img.rssiByteEn = 0#1) :
    s.rssiPoll l = ({ s with wto := true } : State).goto l :=
  if_neg (by simp [h])

/-- DR4 takes the byte that the poll found (R232). -/
theorem State.rssiTake_of_byte {s : State} (l : Label) (h : s.img.rssiByteEn = 1#1) (hw : s.wto = false) {b : Byte}
    {q : List Byte} (hq : s.rxq = b :: q) :
    s.rssiTake l = .next (({ s with rxq := q, rssiRx := b, rssiValid := true } : State).goto l) := by
  simp only [State.rssiTake, h, hw, hq, and_self, if_true]

/-- DR4 on an empty queue stops (log 12). -/
theorem State.rssiTake_of_empty {s : State} (l : Label) (h : s.img.rssiByteEn = 1#1) (hw : s.wto = false)
    (hq : s.rxq = []) : s.rssiTake l = .fault .popOfEmptyQueue := by
  simp only [State.rssiTake, h, hw, hq, and_self, if_true]

/-- DR4 takes nothing where there was no poll, or the poll found nothing (R232). -/
theorem State.rssiTake_of_none {s : State} (l : Label) (h : s.img.rssiByteEn = 0#1 ∨ s.wto = true) :
    s.rssiTake l = .next (s.goto l) :=
  if_neg fun ⟨he, hw⟩ => by simp [he, hw] at h

/-- Entry to DR3 clears TMR exactly where the poll will count it (R186, log 15). -/
theorem State.goto_dr3 (s : State) :
    s.goto .dr3 = { s with upc := .dr3, tmr := if s.img.rssiByteEn = 1#1 then 0 else s.tmr } := by
  have timed : s.timedAt .dr3 = true ↔ s.img.rssiByteEn = 1#1 := by simp [s.timedAt_iff]
  simp only [State.goto, timed]
  rfl

/-! ### The micro-programs, label by label -/

/-- SEND (R231). -/
theorem exec_send (n : BitVec 16) (s : State) :
    (s.upc = .ds1 → exec (.send n) s = .next (s.txWrite n.toNat .ds2)) ∧
    (s.upc = .ds2 → exec (.send n) s = .next (s.busyWait .ds3)) ∧
    (s.upc = .ds3 → exec (.send n) s = .next (s.report (countCode s.wcount n))) := by
  refine ⟨?_, ?_, ?_⟩ <;> intro hu <;> simp only [exec, execSend, hu]
  unfold countCode
  split_ifs <;> rfl

/-- RECEIVE (R232). -/
theorem exec_receive (n : BitVec 16) (s : State) :
    (s.upc = .dr1 → exec (.receive n) s = .next (({ s with rssiValid := false } : State).goto .dr2)) ∧
    (s.upc = .dr2 → exec (.receive n) s = .next (s.rxRead payloadBase n.toNat .dr3)) ∧
    (s.upc = .dr3 → exec (.receive n) s = .next (s.rssiPoll .dr4)) ∧
    (s.upc = .dr4 → exec (.receive n) s = s.rssiTake .dr5) ∧
    (s.upc = .dr5 → exec (.receive n) s = .next (s.busyWait .dr6)) ∧
    (s.upc = .dr6 → exec (.receive n) s = .next (s.report (countCode s.rcount n))) := by
  refine ⟨?_, ?_, ?_, ?_, ?_, ?_⟩ <;> intro hu <;> simp only [exec, execReceive, hu]
  unfold countCode
  split_ifs <;> rfl

/-- QUERY_RSSI (R233). -/
theorem exec_queryRssi (s : State) :
    (s.upc = .qr1 → exec .queryRssi s =
      .next (if s.img.ambNoiseEn = 0#1 ∨ s.lastMode ≠ 0#3 then failed s 3#4 else s.goto .qr2)) ∧
    (s.upc = .qr2 → exec .queryRssi s = .next ((s.stageBytes xbufBase rssiQueryCommand).goto .qr3)) ∧
    (s.upc = .qr3 → exec .queryRssi s = .next (s.txWrite 6 .qr4)) ∧
    (s.upc = .qr4 → exec .queryRssi s = .next (s.delay s.par.tQrssi .qr5)) ∧
    (s.upc = .qr5 → exec .queryRssi s = .next (s.rxRead rbufBase 5 .qr6)) ∧
    (s.upc = .qr6 → exec .queryRssi s = .next (s.sampleRssi.report (countCode s.rcount 5#16))) := by
  refine ⟨?_, ?_, ?_, ?_, ?_, ?_⟩ <;> intro hu <;> simp only [exec, execQueryRssi, hu]
  · rfl
  · rfl
  · obtain ⟨short, whole⟩ := s.sampleRssi.report_countCode s.rcount 5#16
    by_cases h : s.rcount = 5#16
    · rw [whole h, State.sampleRssi_of_whole h, if_neg (not_not.2 h)]
      rfl
    · rw [short h, State.sampleRssi_of_short h, if_pos h]
      rfl

end Sys2Proof.Machine

open Sys2Proof Sys2Proof.Machine

/-- Settles O54: each micro-step's operation, and the two outcomes of DS3. -/
theorem sendSteps : Obligations.SendSteps := by
  intro n s
  obtain ⟨x1, x2, x3⟩ := exec_send n s
  obtain ⟨short, whole⟩ := s.report_countCode s.wcount n
  exact ⟨fun hu => .of_txWrite (x1 hu), fun hu => .of_busyWait (x2 hu),
    fun hu => ⟨fun h => (x3 hu).trans (congrArg _ (short h)), fun h => (x3 hu).trans (congrArg _ (whole h))⟩⟩

/-- Settles O55: each micro-step's operation; DR3 and DR4 by whether the RSSI byte is asked for, and came. -/
theorem receiveSteps : Obligations.ReceiveSteps := by
  intro n s
  obtain ⟨x1, x2, x3, x4, x5, x6⟩ := exec_receive n s
  obtain ⟨short, whole⟩ := s.report_countCode s.rcount n
  refine ⟨x1, fun hu => ?_, fun hu he => .of_waitRx ?_, fun hu he => ?_,
    fun hu he hw => ⟨fun b q hq => ?_, fun hq => ?_⟩, fun hu hn => ?_, fun hu => .of_busyWait (x5 hu),
    fun hu => ⟨fun h => (x6 hu).trans (congrArg _ (short h)), fun h => (x6 hu).trans (congrArg _ (whole h))⟩⟩
  · have read := RxReadRule.of_rxRead (x2 hu)
    simp only [State.goto_dr3] at read
    exact read
  · rw [x3 hu, State.rssiPoll_of_enabled _ he]; rfl
  · rw [x3 hu, State.rssiPoll_of_disabled _ he]; rfl
  · rw [x4 hu, State.rssiTake_of_byte _ he hw hq]; rfl
  · rw [x4 hu, State.rssiTake_of_empty _ he hw hq]
  · rw [x4 hu, State.rssiTake_of_none _ hn]; rfl

/-- Settles O56: each micro-step's operation; the two halves of QR1's precondition, and the two outcomes of QR6. -/
theorem queryRssiSteps : Obligations.QueryRssiSteps := by
  intro s
  obtain ⟨x1, x2, x3, x4, x5, x6⟩ := exec_queryRssi s
  obtain ⟨short, whole⟩ := s.sampleRssi.report_countCode s.rcount 5#16
  refine ⟨fun hu => ⟨fun h => ?_, fun hn hl => ?_⟩, x2, fun hu => .of_txWrite (x3 hu),
    fun hu => .of_delay (x4 hu), fun hu => .of_rxRead (x5 hu), fun hu => ⟨fun h => ?_, fun h => ?_⟩⟩
  · rw [x1 hu, if_pos h]
  · rw [x1 hu, if_neg (by simp [hn, hl])]; rfl
  · rw [x6 hu, short h, State.sampleRssi_of_short h]
  · rw [x6 hu, whole h, State.sampleRssi_of_whole h]; rfl

end

section
/-! Whole data sessions (43_data_session.md R231 to R233): the waiting primitives of a command run one after the other,
from acceptance to the outcome, with the whole state behind them. -/

namespace Sys2Proof.Machine

/-! ### Acceptance -/

/-- A command that the host writes to an idle block runs to where its moves lead it (R251). -/
theorem run_of_does {i : Instr} {s t : State} {ms rest : List Move} (hw : i.WellFormed s.par.payloadMax)
    (hb : s.busy = false) (ha : s.agenda = writeCmd i :: (ms ++ rest))
    (h : Does ms ((s.latch (encode i)).start i) t) :
    Sys2Proof.core.run (1 + ms.length) s = .next (t.withAgenda rest) :=
  (run_add (run_succ (step_writeCmd hw hb ha) 0) _).trans (h rest)

/-- An idle block offers nothing and has no answer (R96). -/
theorem State.Inv.calm_of_idle {s : State} (hinv : s.Inv) (hb : s.busy = false) : s.Calm :=
  hinv.calm (by rw [hinv.idle_iff.2 hb]; rfl)

/-- An outcome judged by a count, as the statements write it. -/
theorem State.report_countCode_ite (s : State) (count asked : BitVec 16) :
    s.report (countCode count asked) = if count = asked then succeeded s else failed s 1#4 := by
  obtain ⟨short, whole⟩ := s.report_countCode count asked
  split
  · next h => exact whole h
  · next h => exact short h

/-- A count of bytes is the one asked for exactly where its register says so. -/
theorem ofNat_count_inj {k m : Nat} {n : BitVec 16} (hn : n.toNat = m) (h : k ≤ m) :
    BitVec.ofNat 16 k = n ↔ k = m := by
  rw [← BitVec.toNat_inj, BitVec.toNat_ofNat, hn, Nat.mod_eq_of_lt (h.trans_lt (hn ▸ n.isLt))]

theorem State.report_countCode_ofNat (s : State) {k m : Nat} {n : BitVec 16} (hn : n.toNat = m) (h : k ≤ m) :
    s.report (countCode (BitVec.ofNat 16 k) n) = if k = m then succeeded s else failed s 1#4 :=
  (s.report_countCode_ite _ _).trans (if_congr (ofNat_count_inj hn h) rfl rfl)

/-! ### SEND -/

/-- A TxWrite of `n` bytes, which for n = 0 awaits no answer (R96). -/
theorem Does.txWriteAny {s : State} {i : Instr} {base : Nat} {n w : BitVec 16} {k : Label} (hu : s.upc ≠ .idle)
    (hd : decode s.par.payloadMax s.cmdlat = .ok i) (hp : s.primAt s.upc = some (.txWrite base n.toNat))
    (ht : s.txpend = false) (hz : s.txAns = none) (hw : w.toNat ≤ n.toNat)
    (hx : ∀ u : State, u.upc = s.upc → exec i u = .next (u.txWrite n.toNat k)) :
    Does (if n = 0#16 then [.block] else txMoves w) s ((s.sent base w).goto k) := by
  by_cases hn : n = 0#16
  · subst hn
    obtain rfl : w = 0#16 := BitVec.eq_of_toNat_eq (Nat.le_zero.1 hw)
    have nothing : (s.sent base 0#16).goto k = s.txWrite (0#16).toNat k := by
      simp [State.sent, State.txWrite, Memory.bytes]
    rw [if_pos rfl, nothing]
    exact .block hu hd (hx s rfl)
  · rw [if_neg hn]
    have hpos : 0 < n.toNat := Nat.pos_of_ne_zero fun h => hn (BitVec.eq_of_toNat_eq h)
    exact .txWrite hu hd hp hpos ht hz w hw fun u e _ => hx u e

/-- SEND, from DS1 to its outcome (R231). -/
theorem Does.send {s : State} {n w : BitVec 16} (hu : s.upc = .ds1) (hc : s.cmdlat = encode (.send n))
    (hd : decode s.par.payloadMax s.cmdlat = .ok (.send n)) (hp : s.par.Reachable)
    (hq : s.par.hasAux = true → s.aux = s.par.auxReadyLevel) (ht : s.txpend = false) (hz : s.txAns = none)
    (hw : w.toNat ≤ n.toNat) :
    ∃ tmr, Does ((if n = 0#16 then [Move.block] else txMoves w) ++ busyMoves s.par ++ [Move.block]) s
      (({ s.sent payloadBase w with tmr := tmr } : State).report (countCode w n)) := by
  have x := exec_send n
  simp only [forall_and] at x
  obtain ⟨x1, x2, x3⟩ := x
  have ⟨_, _, _, hblind, _, _, _, _⟩ := hp
  have offers : s.primAt s.upc = some (.txWrite payloadBase n.toNat) := by simp [hu, State.primAt, hc, encode]
  have sent := Does.txWriteAny (by simp [hu]) hd offers ht hz hw fun u e => x1 u (e.trans hu)
  have waited := sent.trans (.busyWait nofun hd rfl rfl hblind hq x2)
  exact ⟨_, waited.trans (.block nofun hd (x3 _ rfl))⟩

/-! ### Phases that leave the whole state but for the hidden counters -/

/-- The same state with the block's hidden counters at other values (R50). -/
def State.counters (v : State) (tmr : Word) (got : BitVec 16) : State := { v with tmr := tmr, got := got }

/-- A phase: the moves lead from `v` as it enters label `k`, whatever the hidden counters, to `w` as it enters `l`.
Unlike `Leads`, it says what becomes of all the rest of the state. -/
def Passes (ms : List Move) (v : State) (k : Label) (w : State) (l : Label) : Prop :=
  ∀ tmr got, ∃ tmr' got', Does ms ((v.counters tmr got).goto k) ((w.counters tmr' got').goto l)

theorem Passes.trans {ms ms' : List Move} {u v w : State} {j k l : Label} (h : Passes ms u j v k)
    (h' : Passes ms' v k w l) : Passes (ms ++ ms') u j w l := by
  intro tmr got
  obtain ⟨tmr, got, d⟩ := h tmr got
  obtain ⟨tmr, got, d'⟩ := h' tmr got
  exact ⟨tmr, got, d.trans d'⟩

section Phases

variable {p : Params} {i : Instr} {v : State} {k l : Label} (hv : v.Session p i) (hk : k ≠ .idle)
include hv hk

/-- One micro-step (R14). -/
theorem Passes.block {w : State}
    (hx : ∀ tmr got, ∃ tmr' got', exec i ((v.counters tmr got).goto k) = .next ((w.counters tmr' got').goto l)) :
    Passes [.block] v k w l := by
  intro tmr got
  obtain rfl := hv.par
  obtain ⟨_, _, e⟩ := hx tmr got
  exact ⟨_, _, .block (s := (v.counters tmr got).goto k) hk hv.decoded e⟩

/-- A last step (R252). -/
theorem Passes.report {w : State} {err : BitVec 4}
    (hx : ∀ tmr got, exec i ((v.counters tmr got).goto k) = .next (((w.counters tmr got).goto k).report err)) :
    Passes [.block] v k (w.report err) .idle := by
  refine .block hv hk fun tmr got => ?_
  exact ⟨((w.counters tmr got).goto k).tmr, ((w.counters tmr got).goto k).got, hx tmr got⟩

/-- A Delay (R187). -/
theorem Passes.delay {t : Nat} (ht : t < 2 ^ 32) (htimed : v.timedAt k = true)
    (hx : ∀ s : State, s.upc = k → s.par = p → exec i s = .next (s.delay t l)) :
    Passes (ticks t ++ [Move.block]) v k v l := by
  intro tmr got
  obtain rfl := hv.par
  exact ⟨BitVec.ofNat 32 t, ((v.counters tmr got).goto k).got,
    .delay (s := (v.counters tmr got).goto k) hk htimed hv.decoded (if_pos htimed) ht hx⟩

/-- A TxWrite of which `w` bytes go out (R96). -/
theorem Passes.txWrite {base n : Nat} {w : BitVec 16} (hn : 0 < n) (hw : w.toNat ≤ n)
    (hprim : v.primAt k = some (.txWrite base n))
    (hx : ∀ s : State, s.upc = k → exec i s = .next (s.txWrite n l)) :
    Passes (txMoves w) v k (v.sent base w) l := by
  intro tmr got
  obtain rfl := hv.par
  exact ⟨_, _, .txWrite (s := (v.counters tmr got).goto k) hk hv.decoded hprim hn hv.notOffered hv.notAnswered w hw
    fun u hu _ => hx u hu⟩

/-- An RxRead in which `reply` arrives (R99). -/
theorem Passes.rxRead {base n : Nat} {reply : List Byte} (hp : p.rxTimeout < 2 ^ 32) (hl : reply.length ≤ n)
    (hn : n < 2 ^ 16) (htimed : v.timedAt k = true) (hreads : k.reads = true)
    (hx : ∀ s : State, s.upc = k → exec i s = .next (s.rxRead base n l)) :
    Passes (rxMoves p n reply) v k (v.received base reply) l := by
  intro tmr got
  obtain rfl := hv.par
  exact ⟨_, _, .rxReadAll (s := (v.counters tmr got).goto k) hk hv.decoded htimed hv.quiet.1 (if_pos hreads)
    (if_pos htimed) hp (fun u hu _ => hx u hu) reply hl hn⟩

/-- A BusyWait (R189). -/
theorem Passes.busyWait (hp : p.tBlind < 2 ^ 32) (htimed : v.timedAt k = true)
    (hx : ∀ s : State, s.upc = k → exec i s = .next (s.busyWait l)) : Passes (busyMoves p) v k v l := by
  intro tmr got
  obtain rfl := hv.par
  exact ⟨if v.par.hasAux then 0#32 else BitVec.ofNat 32 v.par.tBlind, ((v.counters tmr got).goto k).got,
    .busyWait (s := (v.counters tmr got).goto k) hk hv.decoded htimed (if_pos htimed) hp hv.quiet.2 hx⟩

end Phases

/-! ### RECEIVE -/

/-- The state behind DR3 and DR4, but for the counters: `rssi` is taken where there is a poll for it (R232). -/
def State.withRssi (v : State) (rssi : Option Byte) : State :=
  { v with
    rssiRx := if v.img.rssiByteEn = 1#1 then rssi.getD v.rssiRx else v.rssiRx
    rssiValid := v.img.rssiByteEn == 1#1 && rssi.isSome
    wto := !(v.img.rssiByteEn == 1#1 && rssi.isSome) }

theorem State.withRssi_some {v : State} (he : v.img.rssiByteEn = 1#1) (b : Byte) :
    v.withRssi (some b) = { v with rssiRx := b, rssiValid := true, wto := false } := by
  simp [State.withRssi, he]

theorem State.withRssi_of_none {v : State} {rssi : Option Byte} (h : v.img.rssiByteEn = 0#1 ∨ rssi = none)
    (hv : v.rssiValid = false) : v.withRssi rssi = { v with wto := true } := by
  have same : v.withRssi rssi = { v with rssiValid := false, wto := true } := by
    rcases h with he | rfl
    · simp [State.withRssi, he]
    · simp [State.withRssi]
  rw [same, ← hv]

theorem rssiMoves_disabled {e : BitVec 1} (h : e = 0#1) (rssi : Option Byte) : rssiMoves e rssi = [.block] := by
  subst h
  rfl

theorem rssiMoves_some {e : BitVec 1} (h : e = 1#1) (b : Byte) : rssiMoves e (some b) = [.rxByte b, .block] := by
  subst h
  rfl

theorem rssiMoves_none {e : BitVec 1} (h : e = 1#1) : rssiMoves e none = ticks 5 ++ [Move.block] := by
  subst h
  rfl

section Rssi

variable {s : State} {n : BitVec 16} (hu : s.upc = .dr3) (hd : decode s.par.payloadMax s.cmdlat = .ok (.receive n))
include hu hd

/-- The poll finds the RSSI byte, which DR4 takes (R232). -/
theorem Does.rssiByte (he : s.img.rssiByteEn = 1#1) (hq : s.rxq = []) (b : Byte) :
    Does ([Move.rxByte b, Move.block] ++ [Move.block]) s
      (({ s with rssiRx := b, rssiValid := true, wto := false } : State).goto .dr5) := by
  have x := exec_receive n
  simp only [forall_and] at x
  obtain ⟨-, -, x3, x4, -, -⟩ := x
  have found : (s.rxq ++ [b]) ≠ [] := by simp
  have taken : s.rxq ++ [b] = b :: s.rxq := by simp [hq]
  have polled := (x3 { s with rxq := s.rxq ++ [b] } hu).trans (congrArg _ (State.rssiPoll_of_enabled _ he))
  have popped := (x4 (({ s with rxq := s.rxq ++ [b], wto := false } : State).goto .dr4) rfl).trans
    (State.rssiTake_of_byte (s := ({ s with rxq := s.rxq ++ [b], wto := false } : State).goto .dr4) _ he rfl taken)
  rw [State.waitRx, if_pos found] at polled
  have d := (Does.rxByte s b).trans (.block (s := { s with rxq := s.rxq ++ [b] }) (by simp [hu]) hd polled)
  exact d.trans (.block nofun hd popped)

/-- The poll gives up after T_RSSI_POLL ticks of silence (R190, R232). -/
theorem Does.rssiSilence (he : s.img.rssiByteEn = 1#1) (hq : s.rxq = []) (hz : s.tmr = 0#32) :
    Does (Machine.ticks 5 ++ [Move.block] ++ [Move.block]) s
      (({ s with tmr := 5#32, wto := true } : State).goto .dr5) := by
  have x := exec_receive n
  simp only [forall_and] at x
  obtain ⟨-, -, x3, x4, -, -⟩ := x
  have timed : s.timedAt s.upc = true := (s.timedAt_iff _).2 (.inr ⟨hu, he⟩)
  have waited := Does.ticks timed 5 (by simp [hz])
  rw [hz, BitVec.zero_add] at waited
  have polled := (x3 { s with tmr := 5#32 } hu).trans (congrArg _ (State.rssiPoll_of_enabled _ he))
  obtain ⟨-, leaves, -⟩ := WaitRxRule.of_waitRx polled
  have left := waited.trans (.block (by simp [hu]) hd (leaves hq (Nat.le_refl 5)))
  exact left.trans (.block nofun hd ((x4 _ rfl).trans (State.rssiTake_of_none _ (.inr rfl))))

/-- Without the RSSI byte there is no poll (R232). -/
theorem Does.rssiSkipped (he : s.img.rssiByteEn = 0#1) :
    Does ([Move.block] ++ [Move.block]) s (({ s with wto := true } : State).goto .dr5) := by
  have x := exec_receive n
  simp only [forall_and] at x
  obtain ⟨-, -, x3, x4, -, -⟩ := x
  have left := Does.block (by simp [hu]) hd ((x3 s hu).trans (congrArg _ (State.rssiPoll_of_disabled _ he)))
  exact left.trans (.block nofun hd ((x4 _ rfl).trans (State.rssiTake_of_none _ (.inr rfl))))

end Rssi

section Receive

variable {p : Params} {n : BitVec 16} {v : State} (hp : p.Reachable) (hv : v.Session p (.receive n))
include hv

/-- RECEIVE's DR3 and DR4 (R232). -/
theorem Passes.rssi (hc : v.rssiValid = false) (rssi : Option Byte) :
    Passes (rssiMoves v.img.rssiByteEn rssi ++ [Move.block]) v .dr3 (v.withRssi rssi) .dr5 := by
  intro tmr got
  obtain rfl := hv.par
  have hq : v.rxq = [] := hv.quiet.1
  rcases BitVec.eq_zero_or_eq_one v.img.rssiByteEn with he | he
  · rw [State.withRssi_of_none (.inl he) hc, rssiMoves_disabled he]
    exact ⟨_, _, .rssiSkipped (s := (v.counters tmr got).goto .dr3) rfl hv.decoded he⟩
  · cases rssi with
    | none =>
      have timed : v.timedAt .dr3 = true := (v.timedAt_iff _).2 (.inr ⟨rfl, he⟩)
      rw [State.withRssi_of_none (.inr rfl) hc, rssiMoves_none he]
      exact ⟨_, _, .rssiSilence (s := (v.counters tmr got).goto .dr3) rfl hv.decoded he hq (if_pos timed)⟩
    | some b =>
      rw [State.withRssi_some he, rssiMoves_some he]
      exact ⟨_, _, .rssiByte (s := (v.counters tmr got).goto .dr3) rfl hv.decoded he hq b⟩

/-- The state behind RECEIVE, but for its counters and its outcome (R232). -/
def State.afterReceive (v : State) (reply : List Byte) (rssi : Option Byte) : State :=
  (({ v with rssiValid := false } : State).received payloadBase reply).withRssi rssi

/-- The moves through RECEIVE (R232). -/
def receiveMoves (p : Params) (n : Nat) (enabled : BitVec 1) (reply : List Byte) (rssi : Option Byte) : List Move :=
  [Move.block] ++ rxMoves p n reply ++ (rssiMoves enabled rssi ++ [Move.block]) ++ busyMoves p ++ [Move.block]

include hp in
/-- RECEIVE, from DR1 to its outcome, with no byte queued before it (R232). -/
theorem Passes.receive {reply : List Byte} (hl : reply.length ≤ n.toNat) (rssi : Option Byte) :
    Passes (receiveMoves p n.toNat v.img.rssiByteEn reply rssi) v .dr1
      ((v.afterReceive reply rssi).report (countCode (BitVec.ofNat 16 reply.length) n)) .idle := by
  have x := exec_receive n
  simp only [forall_and] at x
  obtain ⟨x1, x2, -, -, x5, x6⟩ := x
  have ⟨_, _, _, hblind, _, _, _, htimeout⟩ := hp
  have hcleared : ({ v with rssiValid := false } : State).Session p (.receive n) :=
    ⟨hv.par, hv.decoded, hv.quiet, hv.notOffered, hv.notAnswered⟩
  have hreceived := hcleared.received payloadBase reply
  have hsampled : (v.afterReceive reply rssi).Session p (.receive n) :=
    ⟨hv.par, hv.decoded, hv.quiet, hv.notOffered, hv.notAnswered⟩
  have cleared : Passes [.block] v .dr1 { v with rssiValid := false } .dr2 :=
    .block hv (by decide) fun _ _ => ⟨_, _, x1 _ rfl⟩
  have read := Passes.rxRead hcleared (by decide) htimeout hl n.isLt rfl rfl x2
  have sampled := Passes.rssi hreceived rfl rssi
  have waited := Passes.busyWait hsampled (by decide) hblind rfl x5
  have judged := Passes.report (err := countCode (BitVec.ofNat 16 reply.length) n) hsampled (by decide) fun _ _ =>
    x6 _ rfl
  exact cleared.trans read |>.trans sampled |>.trans waited |>.trans judged

end Receive

/-! ### QUERY_RSSI -/

/-- The state behind QUERY_RSSI's exchange, but for its counters (R144, R233). -/
def State.queried (v : State) (w : BitVec 16) (reply : List Byte) : State :=
  ((v.stageBytes xbufBase rssiQueryCommand).sent xbufBase w).received rbufBase reply

/-- The moves through QUERY_RSSI (R233). -/
def queryMoves (p : Params) (w : BitVec 16) (reply : List Byte) : List Move :=
  [Move.block] ++ [Move.block] ++ txMoves w ++ (ticks p.tQrssi ++ [Move.block]) ++ rxMoves p 5 reply ++ [Move.block]

/-- QR6: the samples and the outcome (R233). -/
theorem Passes.judgeQuery {p : Params} {v : State} (hv : v.Session p .queryRssi) :
    Passes [.block] v .qr6 (v.sampleRssi.report (countCode v.rcount 5#16)) .idle := by
  refine .report hv (by decide) fun tmr got => ?_
  obtain ⟨-, -, -, -, -, x6⟩ := exec_queryRssi ((v.counters tmr got).goto .qr6)
  exact x6 rfl

/-- QUERY_RSSI, from QR1 to its outcome, where its precondition holds (R233). -/
theorem Passes.queryRssi {p : Params} {v : State} {w : BitVec 16} {reply : List Byte} (hp : p.Reachable)
    (hv : v.Session p .queryRssi) (hn : v.img.ambNoiseEn = 1#1) (hm : v.lastMode = 0#3) (hw : w.toNat ≤ 6)
    (hl : reply.length ≤ 5) :
    Passes (queryMoves p w reply) v .qr1
      ((v.queried w reply).sampleRssi.report (countCode (BitVec.ofNat 16 reply.length) 5#16)) .idle := by
  have x := exec_queryRssi
  simp only [forall_and] at x
  obtain ⟨x1, x2, x3, x4, x5, -⟩ := x
  have ⟨_, _, _, _, _, _, hsettle, htimeout⟩ := hp
  have hstaged := hv.stageBytes xbufBase rssiQueryCommand
  have hsent := hstaged.sent xbufBase w
  have hqueried : (v.queried w reply).Session p .queryRssi := hsent.received rbufBase reply
  have passed : Passes [.block] v .qr1 v .qr2 := .block hv (by decide) fun tmr got =>
    ⟨tmr, got, (x1 _ rfl).trans (congrArg _ (if_neg (by simp [State.counters, hn, hm])))⟩
  have staged : Passes [.block] v .qr2 (v.stageBytes xbufBase rssiQueryCommand) .qr3 :=
    .block hv (by decide) fun tmr got => ⟨tmr, got, x2 _ rfl⟩
  have sent := Passes.txWrite hstaged (by decide) (by decide) hw rfl x3
  have settled := Passes.delay hsent (by decide) hsettle rfl fun s hu hs => hs ▸ x4 s hu
  have read := Passes.rxRead hsent (by decide) htimeout hl (by decide) rfl rfl x5
  exact passed.trans staged |>.trans sent |>.trans settled |>.trans read |>.trans (.judgeQuery hqueried)

/-! ### What a session leaves behind -/

/-- The pins show mode 0 wherever LAST_MODE says NORMAL outside SET_MODE (R192). -/
theorem State.Inv.modeCode_of_normal {s : State} (hinv : s.Inv) (hb : s.busy = false) (hm : s.lastMode = 0#3) :
    s.modeCode = 0#2 := by
  have shown : s.PinsShow := hinv.mode.pinsShow (by rw [hinv.idle_iff.2 hb]; rfl)
  exact shown.modeCode_eq hm

/-- Bytes that were written at rising addresses stand there (R99). -/
theorem Memory.read_writeBytes_mem {m : Memory} (hm : m.Wf) (base : Nat) {bs : List Byte} {k : Nat}
    (hk : k < bs.length) : (m.writeBytes base bs).read (base + k) = (bs[k]?).getD 0 := by
  rw [Memory.read_writeBytes hm, if_pos (by omega), Nat.add_sub_cancel_left, List.getD_eq_getElem?_getD]
  rfl

/-- The bytes beside them are as they were. -/
theorem Memory.read_writeBytes_frame {m : Memory} (hm : m.Wf) {base a : Nat} {bs : List Byte}
    (h : ¬ (base ≤ a ∧ a < base + bs.length)) : (m.writeBytes base bs).read a = m.read a := by
  rw [Memory.read_writeBytes hm, if_neg h]

/-- QR6's samples, by their values. -/
theorem State.sampleRssi_eq {s : State} {noise lastRssi : Byte}
    (hn : (if s.rcount = 5#16 then s.mem.read (rbufBase + 3) else s.noise) = noise)
    (hl : (if s.rcount = 5#16 then s.mem.read (rbufBase + 4) else s.lastRssi) = lastRssi) :
    s.sampleRssi = { s with noise := noise, lastRssi := lastRssi } := by
  rw [State.sampleRssi, hn, hl]

section Left

variable {v : State} (hm : v.mem.Wf) {w : BitVec 16} {reply : List Byte}
include hm

/-- The whole state behind QUERY_RSSI's exchange, in mode 0 (R144, R233). -/
theorem State.queried_eq (h0 : v.modeCode = 0#2) (hw : w.toNat ≤ 6) :
    v.queried w reply =
      { v with
        wcount := w
        rcount := BitVec.ofNat 16 reply.length
        mem := (v.mem.writeBytes xbufBase rssiQueryCommand).writeBytes rbufBase reply
        txlog := v.txlog ++ (rssiQueryCommand.take w.toNat).map fun b => (b, 0#2) } := by
  have pins : v.m1 ++ v.m0 = 0#2 := h0
  simp only [State.queried, State.received, State.sent, State.stageBytes, State.modeCode, pins,
    Memory.bytes_writeBytes hm xbufBase (bs := rssiQueryCommand) hw]

/-- QUERY_RSSI's samples are reply bytes 3 and 4, of a whole reply (R144, R233). -/
theorem State.queried_sampleRssi (hl : reply.length ≤ 5) :
    (v.queried w reply).sampleRssi =
      { v.queried w reply with
        noise := if reply.length = 5 then (reply[3]?).getD 0 else v.noise
        lastRssi := if reply.length = 5 then (reply[4]?).getD 0 else v.lastRssi } := by
  have whole : (v.queried w reply).rcount = 5#16 ↔ reply.length = 5 := ofNat_count_inj rfl hl
  have sample (k : Nat) (hk : k < 5) (old : Byte) :
      (if (v.queried w reply).rcount = 5#16 then (v.queried w reply).mem.read (rbufBase + k) else old) =
        if reply.length = 5 then (reply[k]?).getD 0 else old := by
    by_cases h : reply.length = 5
    · rw [if_pos (whole.2 h), if_pos h]
      exact State.exchanged_read_reply (out := xbufBase) (bs := rssiQueryCommand) (w := w) hm (hk.trans_eq h.symm)
    · rw [if_neg (mt whole.1 h), if_neg h]
  exact State.sampleRssi_eq (sample 3 (by decide) _) (sample 4 (by decide) _)

end Left

/-! ### Whole sessions -/

/-- Acceptance of a well-formed command begins a session (R251). -/
theorem State.Session.latch_wellFormed {i : Instr} {s : State} (hw : i.WellFormed s.par.payloadMax) (hinv : s.Inv)
    (hb : s.busy = false) (hq : s.Quiet) : (s.latch (encode i)).Session s.par i :=
  have c := hinv.calm_of_idle hb
  ⟨rfl, decode_encode hw, hq, c.notOffered, c.notAnswered⟩

/-- A command whose phases lead from acceptance to an outcome runs to the end (R251, R252). -/
theorem run_of_passes {i : Instr} {s w : State} {err : BitVec 4} {ms rest : List Move}
    (hw : i.WellFormed s.par.payloadMax) (hb : s.busy = false) (ha : s.agenda = writeCmd i :: (ms ++ rest))
    (hs : (s.latch (encode i)).start i = (s.latch (encode i)).goto i.firstLabel)
    (h : Passes ms (s.latch (encode i)) i.firstLabel (w.report err) .idle) :
    ∃ k tmr got, Sys2Proof.core.run k s = .next (((w.counters tmr got).report err).withAgenda rest) := by
  obtain ⟨tmr, got, d⟩ := h s.tmr s.got
  exact ⟨_, tmr, got, run_of_does hw hb ha (hs ▸ d)⟩

end Sys2Proof.Machine

open Sys2Proof Sys2Proof.Machine

/-- Settles O57: acceptance, the TxWrite and the BusyWait, and the outcome by the count. -/
theorem sendRunsToTheEnd : Obligations.SendRunsToTheEnd := by
  intro s n w rest hinv hb hp hq hn hw ha
  have c := hinv.calm_of_idle hb
  obtain ⟨tmr, d⟩ := Does.send (s := (s.latch (encode (.send n))).start (.send n)) rfl rfl
    (decode_encode (i := .send n) hn) hp hq c.notOffered c.notAnswered hw
  refine ⟨_, _, run_of_does (i := .send n) hn hb ha d, ?_⟩
  rw [State.report_countCode_ite, State.sent, Memory.bytes, List.map_map]
  split <;> rfl

/-- Settles O58: acceptance, RECEIVE's phases from DR1 to DR6, and what they leave. -/
theorem receiveRunsToTheEnd : Obligations.ReceiveRunsToTheEnd := by
  intro s n reply rssi rest hinv hb hp hq hn hl ha
  obtain ⟨k, tmr, got, hrun⟩ := run_of_passes (i := .receive n) (rest := rest) hn hb
    (by rw [ha]; simp [receiveMoves]) rfl
    (Passes.receive hp (.latch_wellFormed hn hinv hb hq) hl rssi)
  have hm : s.mem.Wf := hinv.memory.1
  refine ⟨k, _, hrun, ?_, fun _ hk => Memory.read_writeBytes_mem hm payloadBase hk,
    fun _ h => Memory.read_writeBytes_frame hm h⟩
  rw [State.report_countCode_ofNat _ rfl hl]
  split <;> rfl

/-- Settles O59: acceptance, QUERY_RSSI's phases from QR1 to QR6, and what they leave. -/
theorem queryRssiRunsToTheEnd : Obligations.QueryRssiRunsToTheEnd := by
  intro s w reply rest hinv hb hp hq hn hm hw hl ha
  obtain ⟨k, tmr, got, hrun⟩ := run_of_passes (i := .queryRssi) (rest := rest) trivial hb
    (by rw [ha]; simp [queryMoves]) rfl
    (Passes.queryRssi hp (.latch_wellFormed (i := .queryRssi) trivial hinv hb hq) hn hm hw hl)
  have hwf : s.mem.Wf := hinv.memory.1
  rw [State.queried_sampleRssi (v := s.latch (encode .queryRssi)) hwf hl,
    State.queried_eq (v := s.latch (encode .queryRssi)) hwf (hinv.modeCode_of_normal hb hm) hw] at hrun
  refine ⟨k, _, hrun, ?_, fun k hk => ?_, fun k hk => ?_, fun a ho hb => ?_⟩
  · rw [State.report_countCode_ofNat (m := 5) _ rfl hl]
    by_cases h : reply.length = 5
    · simp only [if_pos h]
      rfl
    · simp only [if_neg h]
      rfl
  · exact State.exchanged_read_reply (out := xbufBase) (bs := rssiQueryCommand) (w := w) hwf hk
  · exact State.exchanged_read_staged (bs := rssiQueryCommand) (w := w) hwf hk
      (by simp only [xbufBase, rbufBase]; omega)
  · exact State.exchanged_read_frame (bs := rssiQueryCommand) (w := w) hwf ho hb

end

section
/-! Acceptance and refusal of the host's writes (60_exceptions.md R251, R253, R254): a word written to CMD while
BUSY = 0 starts its command or completes as illegal, and a write refused under BUSY leaves OVERRUN, which sticks. -/

namespace Sys2Proof.Machine

/-! ### Acceptance -/

/-- A write to CMD while BUSY = 0 is an acceptance (R251). -/
theorem State.hostWrite_cmd {s : State} {a : Addr} (ha : a &&& 0xFFC#12 = 0x000#12) (hb : s.busy = false) (v : Word) :
    s.hostWrite a v = s.accept v :=
  (s.hostWrite_congr (b := 0x000#12) ((wordAddr_eq_iff a 0x000#12).2 ha) v).trans (if_neg (by simp [hb]))

theorem State.accept_of_error {s : State} {v : Word} {e : Illegal} (h : decode s.par.payloadMax v = .error e) :
    s.accept v = (s.latch v).raise .illegal := by
  simp only [State.accept, h]

/-- The agenda's write to CMD of an idle block is an acceptance, in the host's own step. -/
theorem step_accept {s : State} {rest : List Move} {a : Addr} {v : Word} (h : s.agenda = .access (.write a v) :: rest)
    (ha : a &&& 0xFFC#12 = 0x000#12) (hb : s.busy = false) : step s = .next ((s.withAgenda rest).accept v) :=
  (step_of_agenda_cons h).trans (congrArg Host.Outcome.next (State.hostWrite_cmd (s := s.withAgenda rest) ha hb v))

/-- An acceptance latches its word, legal or not, and is no refusal. -/
theorem State.accept_latches (s : State) (v : Word) : (s.accept v).cmdlat = v ∧ (s.accept v).overrun = s.overrun := by
  rcases s.accept_cases v with ⟨_, -, e⟩ | ⟨i, -, e⟩ <;> rw [e]
  · exact ⟨rfl, rfl⟩
  · rcases (s.latch v).start_cases i with ⟨_, -, e⟩ | ⟨-, e⟩ <;> rw [e] <;> exact ⟨rfl, rfl⟩

/-! ### The busy refusal -/

/-- The writes that BUSY refuses: CMD, CTRL, CUR_BAUD and the PAYLOAD words (R84, R254). -/
theorem State.hostWrite_of_busy {s : State} {a : Addr} (hb : s.busy = true)
    (ha : wordAddr a ∈ [0x000, 0x00C, 0x010] ∨ inPayloadWindow s.par.payloadMax (wordAddr a) = true) (v : Word) :
    s.hostWrite a v = s.refuse := by
  have refused : ∀ u : State, s.unlessBusy u = s.refuse := fun u => if_pos hb
  rw [inPayloadWindow_iff] at ha
  unfold State.hostWrite
  split
  case h_2 hw => simp [hw] at ha
  case h_5 h0 _ hC h10 =>
    have window := ha.resolve_left (by simpa using ⟨h0, hC, h10⟩)
    rw [if_pos ((inPayloadWindow_iff _ _).2 window), refused]
  all_goals exact refused _

/-- Under BUSY a host access changes OVERRUN and the record of what was read, and nothing else (R84, R254). -/
theorem State.access_of_busy {s : State} (hb : s.busy = true) (x : Access) :
    ∃ o b, s.access x = { s with overrun := o, busReads := b } := by
  rcases s.access_any x with ⟨b, e⟩ | ⟨v, h, -⟩ | e | ⟨a, v, -, -, -, e⟩ | ⟨a, v, -, -, h, -⟩ | ⟨a, v, -, -, h, -⟩ |
    ⟨a, v, -, -, h, -⟩
  · exact ⟨_, _, e⟩
  · simp [hb] at h
  · exact ⟨_, _, e⟩
  · exact ⟨_, _, e⟩
  · simp [hb] at h
  · simp [hb] at h
  · simp [hb] at h

/-! ### OVERRUN sticks -/

/-- A host access leaves OVERRUN 1 unless it writes 1 to STATUS bit 3 (R254). -/
theorem State.access_overrun {s : State} (ho : s.overrun = true) (x : Access) :
    (s.access x).overrun = true ∨ ∃ a v, x = .write a v ∧ a &&& 0xFFC#12 = 0x004#12 ∧ v.getLsbD 3 = true := by
  rcases s.access_any x with ⟨b, e⟩ | ⟨v, -, e⟩ | e | ⟨a, v, hx, ha, hv, -⟩ | ⟨a, v, -, -, -, e⟩ |
    ⟨a, v, -, -, -, e⟩ | ⟨a, v, -, -, -, e⟩
  case inr.inr.inr.inl => exact .inr ⟨a, v, hx, (wordAddr_eq_iff a 0x004#12).1 ha, hv⟩
  all_goals rw [e]; left
  · exact ho
  · exact (s.accept_latches v).2.trans ho
  · rfl
  · exact ho
  · exact ho
  · obtain ⟨m, e⟩ := s.writePayloadWord_eq (wordAddr a) v
    rw [e]
    exact ho

/-- A step leaves OVERRUN 1 unless it performs a host write of 1 to STATUS bit 3, or a reset (R254, R280). -/
theorem step_overrun {s t : State} (h : step s = .next t) (ho : s.overrun = true) :
    t.overrun = true ∨
      (∃ a v, s.performs (.write a v) ∧ a &&& 0xFFC#12 = 0x004#12 ∧ v.getLsbD 3 = true) ∨
      ∃ d rest, s.agenda = .reset d :: rest := by
  have same : ∀ {u : State}, (u = s ∨ ∃ rest, u = { s with agenda := rest }) → u.overrun = true := by
    rintro u (rfl | ⟨rest, rfl⟩) <;> exact ho
  cases step_stepCase h with
  | block u t i _ hu _ _ hx => exact .inl ((SameOutside.exec hx).overrun.trans (same hu))
  | access u t x hx hu e =>
    obtain ⟨ag, pr, rfl⟩ := hu
    rcases State.access_overrun (s := { s with agenda := ag, prog := pr }) ho x with kept | ⟨a, v, rfl, ha, hv⟩
    · exact .inl (e ▸ kept)
    · exact .inr (.inl ⟨a, v, hx, ha, hv⟩)
  | poll a p b => exact .inl ho
  | reset rest d ha => exact .inr (.inr ⟨d, rest, ha⟩)
  | tick u t hu e =>
    have hu := same hu
    left
    rw [e, u.tick_eq_setTmr]
    exact hu
  | env rest q l hq => exact .inl ho
  | tx u t w dr _ hu e =>
    have hu := same hu
    left
    rcases u.txAnswer_cases w with e' | ⟨_, _, -, -, -, e'⟩ <;> rw [e, e'] <;> exact hu
  | baud rest t e =>
    left
    rcases State.takeBaud_cases { s with agenda := rest } with e' | ⟨-, e'⟩ <;> rw [e, e'] <;> exact ho

end Sys2Proof.Machine

open Sys2Proof Sys2Proof.Machine

/-- Settles O10: the host's step latches the word and starts its command. -/
theorem acceptanceEffect : Obligations.AcceptanceEffect := by
  intro s rest a v i h ha hb hd
  rw [step_accept h ha hb, State.accept_of_decode (s := s.withAgenda rest) hd]
  cases i <;> rfl

/-- Settles O11: the word is latched and completed in one step, which leaves an idle block. -/
theorem illegalWordCompletes : Obligations.IllegalWordCompletes := by
  intro s rest a v e h ha hb hd
  have completes : step s = .next (((s.withAgenda rest).latch v).raise .illegal) := by
    rw [step_accept h ha hb, State.accept_of_error (s := s.withAgenda rest) hd]
  refine ⟨completes, fun t ht v' => ?_⟩
  obtain rfl := Host.Outcome.next.inj (completes.symm.trans ht)
  rw [State.hostWrite_cmd rfl rfl]
  exact State.accept_latches _ v'

/-- Settles O12: the refusal, its stickiness over every agent's step, and the two ways to clear it. -/
theorem busyRefusal : Obligations.BusyRefusal := by
  refine ⟨fun s a v hb ha => ?_, fun s t h ho => ?_, fun s a v ha hv => ?_, fun s d => rfl⟩
  · rw [← inPayloadWindow_iff] at ha
    exact State.hostWrite_of_busy hb ha v
  · exact step_overrun h ho
  · exact (s.hostWrite_congr (b := 0x004#12) ((wordAddr_eq_iff a 0x004#12).2 ha) v).trans (if_pos hv)
end

section
/-! How a command ends (60_exceptions.md R252, R256, R261): each of its micro-steps holds, brings it nearer to its end
or reports its one outcome, and so every run of the default schedule that starts in a command completes it. -/

namespace Sys2Proof.Machine

/-! ### The work a command has left -/

/-- How many labels a micro-program has still to leave from a label on, the SET_MODE it calls counted where it is
called. -/
def Label.stepsLeft : Label → Nat
  | .idle => 0
  | .sm1 => 8 | .sm2 => 7 | .sm3 => 6 | .sm4 => 5 | .sm5 => 4 | .sm6 => 3 | .sm7 => 2 | .sm8 => 1
  | .sf1 | .gf1 | .lr1 | .nd1 => 1
  | .rp1 => 24 | .rp2 => 23 | .rp3 => 14 | .rp4 => 13 | .rp5 => 12 | .rp6 => 11 | .rp7 => 10 | .rp8 => 1
  | .sp1 => 24 | .sp2 => 23 | .sp3 => 14 | .sp4 => 13 | .sp5 => 12 | .sp6 => 11 | .sp7 => 10 | .sp8 => 1
  | .ck1 => 23 | .ck2 => 22 | .ck3 => 13 | .ck4 => 12 | .ck5 => 11 | .ck6 => 10 | .ck7 => 1
  | .ds1 => 3 | .ds2 => 2 | .ds3 => 1
  | .dr1 => 6 | .dr2 => 5 | .dr3 => 4 | .dr4 => 3 | .dr5 => 2 | .dr6 => 1
  | .qr1 => 6 | .qr2 => 5 | .qr3 => 4 | .qr4 => 3 | .qr5 => 2 | .qr6 => 1

/-- The labels a command has still to leave, those behind its call of SET_MODE among them (R51). -/
def State.labelsLeft (s : State) : Nat := s.upc.stepsLeft + s.ret.elim 0 Label.stepsLeft

/-- How far a TxWrite has still to go: it offers its bytes, is answered, and leaves (R96). -/
def State.offerLeft (s : State) : Nat := if s.txpend then 1 else if s.txAns.isSome then 0 else 2

/-- The work left to a command in a run of the default schedule, in which no byte arrives: a step that leaves its label,
takes a received byte, offers or answers a TxWrite, or performs a host access lessens it. -/
def State.work (s : State) : Nat := 3 * s.labelsLeft + s.offerLeft + s.rxq.length + s.prog.length

theorem State.offerLeft_le (s : State) : s.offerLeft ≤ 2 := by
  unfold State.offerLeft
  split_ifs <;> omega

/-- Leaving a label lessens the work, whatever offer begins behind it. -/
theorem State.work_lt_of_labelsLeft {s t : State} (h : t.labelsLeft < s.labelsLeft)
    (hq : t.rxq.length ≤ s.rxq.length) (hp : t.prog = s.prog) : t.work < s.work := by
  have := t.offerLeft_le
  simp only [State.work, hp]
  omega

/-! ### What brings a command nearer to its end -/

/-- A micro-step of a command that goes on: it holds or lessens the work left. -/
def Advances (s t : State) : Prop := t.busy = s.busy ∧ (t = s ∨ t.work < s.work)

theorem Advances.refl (s : State) : Advances s s := ⟨rfl, .inl rfl⟩

theorem Advances.waitRx {s : State} (t : Nat) {leave : Bool → State} (h : ∀ b, Advances s (leave b)) :
    Advances s (s.waitRx t leave) := by
  rcases s.waitRx_cases t leave with ⟨-, e⟩ | ⟨-, -, e⟩ | ⟨-, -, e⟩ <;> rw [e]
  · exact h _
  · exact h _
  · exact .refl s

/-- A call of SET_MODE counts its eight steps and those behind it. -/
theorem Advances.callSetMode {s : State} {k l : Label} (hu : s.upc = k) (hl : 8 + l.stepsLeft < k.stepsLeft)
    (mc : BitVec 2) : Advances s (s.callSetMode mc l) := by
  refine ⟨rfl, .inr (State.work_lt_of_labelsLeft ?_ le_rfl rfl)⟩
  change 8 + l.stepsLeft < s.upc.stepsLeft + _
  rw [hu]
  omega

section Operations

variable {s : State} {k l : Label} (hu : s.upc = k) (hl : l.stepsLeft < k.stepsLeft)
include hu hl

/-- A step enters a label nearer to the end. -/
theorem Advances.goto {u : State} (hb : u.busy = s.busy) (hr : u.ret = s.ret) (hq : u.rxq.length ≤ s.rxq.length)
    (hp : u.prog = s.prog) : Advances s (u.goto l) := by
  refine ⟨hb, .inr (State.work_lt_of_labelsLeft ?_ hq hp)⟩
  simpa [State.labelsLeft, hu, hr] using hl

theorem Advances.delay (t : Nat) : Advances s (s.delay t l) := by
  rcases s.delay_cases t l with ⟨-, e⟩ | ⟨-, e⟩ <;> rw [e]
  · exact .goto hu hl rfl rfl le_rfl rfl
  · exact .refl s

/-- Drain leaves, or takes a byte of the queue. -/
theorem Advances.drain : Advances s (s.drain l) := by
  rcases s.drain_cases l with ⟨-, e⟩ | ⟨_, _, -, -, e⟩ | ⟨b, q, hq, -, e⟩ <;> rw [e]
  · exact .goto hu hl rfl rfl le_rfl rfl
  · exact .goto hu hl rfl rfl le_rfl rfl
  · refine ⟨rfl, .inr ?_⟩
    simp [State.work, State.labelsLeft, State.offerLeft, hq]

theorem Advances.busyWait : Advances s (s.busyWait l) := by
  rcases s.busyWait_cases l with e | ⟨-, e⟩ | e <;> rw [e]
  · exact .goto hu hl rfl rfl le_rfl rfl
  · exact .goto hu hl rfl rfl le_rfl rfl
  · exact .refl s

/-- RxRead leaves, or takes a byte of the queue. -/
theorem Advances.rxRead (base n : Nat) : Advances s (s.rxRead base n l) := by
  rcases s.rxRead_cases base n l with e | ⟨b, q, -, hq, e⟩ | e <;> rw [e]
  · exact .goto hu hl rfl rfl le_rfl rfl
  · refine ⟨rfl, .inr ?_⟩
    simp [State.work, State.labelsLeft, State.offerLeft, hq]
  · exact .refl s

/-- TxWrite leaves, or begins its offer. -/
theorem Advances.txWrite (n : Nat) : Advances s (s.txWrite n l) := by
  rcases s.txWrite_cases n l with ⟨-, e⟩ | ⟨-, -, e⟩ | ⟨_, -, -, -, e⟩ | ⟨-, hp, ha, e⟩ <;> rw [e]
  · exact .goto hu hl rfl rfl le_rfl rfl
  · exact .refl s
  · exact .goto hu hl rfl rfl le_rfl rfl
  · refine ⟨rfl, .inr ?_⟩
    simp [State.work, State.labelsLeft, State.offerLeft, hp, ha]

theorem Advances.rssiPoll : Advances s (s.rssiPoll l) := by
  unfold State.rssiPoll
  split
  · exact .waitRx _ fun _ => .goto hu hl rfl rfl le_rfl rfl
  · exact .goto hu hl rfl rfl le_rfl rfl

theorem Advances.rssiTake {t : State} (h : s.rssiTake l = .next t) : Advances s t := by
  unfold State.rssiTake at h
  split at h
  · split at h <;> cases h
    next hq => exact .goto hu hl rfl rfl (by simp [hq]) rfl
  · cases h
    exact .goto hu hl rfl rfl le_rfl rfl

end Operations

/-! ### Every micro-step advances its command or reports its outcome -/

/-- The outcome code of a command that completes, in the order of R256 (R212 to R214, R231 to R233). -/
def State.outcome (s : State) : Instr → BitVec 4
  | .readParams => s.readOutcome
  | .saveParams _ => s.countOutcome 9#16
  | .setCryptKey _ => s.countOutcome 5#16
  | .send n => countCode s.wcount n
  | .receive n => countCode s.rcount n
  | .queryRssi =>
    if s.upc = .qr1 then if s.img.ambNoiseEn = 0#1 ∨ s.lastMode ≠ 0#3 then 3#4 else 0#4
    else countCode s.rcount 5#16
  | .setMode _ | .setField _ _ | .getField _ | .loadReg _ _ | .noiseDbm _ => 0#4

/-- A step of SET_MODE advances, or is the last one of a SET_MODE that no command called (R51, R185). -/
theorem State.setModeStep_advances {s t : State} (h : s.setModeStep = .next t) :
    Advances s t ∨ (s.ret = none ∧ ∃ u : State, t = u.report 0#4) := by
  unfold State.setModeStep at h
  split at h <;> cases h
  case h_8 hu =>
    rcases s.recordMode_cases with ⟨hr, e⟩ | ⟨l, hr, e⟩ <;> rw [e]
    · exact .inr ⟨hr, _, rfl⟩
    · refine .inl ⟨rfl, .inr (State.work_lt_of_labelsLeft ?_ le_rfl rfl)⟩
      simp [State.labelsLeft, hu, hr, Label.stepsLeft]
  all_goals left
  · next hu => exact .delay hu (by decide) _
  · next hu => exact .goto hu (by decide) rfl rfl le_rfl rfl
  · next hu =>
    rcases s.switchToProgBaud_cases with ⟨-, -, e⟩ | e <;> rw [e] <;>
      exact .goto hu (by decide) rfl rfl le_rfl rfl
  · next hu =>
    rcases s.restoreBaud_cases with ⟨-, -, e⟩ | e <;> rw [e] <;>
      exact .goto hu (by decide) rfl rfl le_rfl rfl
  · next hu => exact .delay hu (by decide) _
  · next hu => exact .drain hu (by decide)
  · next hu => exact .busyWait hu (by decide)

/-- So does a command's own step, whose last one reports the command's outcome. -/
theorem exec_own_advances {i : Instr} {s t : State} (hs : s.upc.isSetMode = false) (ho : i.owns s.upc = true)
    (h : exec i s = .next t) : Advances s t ∨ ∃ u : State, t = u.report (s.outcome i) := by
  have answer : ∀ {u : State}, exec i s = .next u → t = u := fun e => Host.Outcome.next.inj (h.symm.trans e)
  cases i with
  | setMode mc => exact absurd (hs.symm.trans ho) (by decide)
  | setField f v => exact .inr ⟨_, answer (exec_setField (of_decide_eq_true ho) f v)⟩
  | getField f => exact .inr ⟨_, answer (exec_getField (of_decide_eq_true ho) f)⟩
  | loadReg r b => exact .inr ⟨_, answer (exec_loadReg (of_decide_eq_true ho) r b)⟩
  | noiseDbm raw => exact .inr ⟨_, answer (exec_noiseDbm (of_decide_eq_true ho) raw)⟩
  | readParams =>
    obtain ⟨x1, x2, x3, x4, x5, x6, x7, x8⟩ := exec_readParams s
    simp only [Instr.owns, List.mem_cons, List.not_mem_nil, or_false, decide_eq_true_eq] at ho
    rcases ho with hu | hu | hu | hu | hu | hu | hu | hu
    · exact .inl (answer (x1 hu) ▸ .goto hu (by decide) rfl rfl le_rfl rfl)
    · exact .inl (answer (x2 hu) ▸ .callSetMode hu (by decide) _)
    · exact .inl (answer (x3 hu) ▸ .txWrite hu (by decide) _)
    · exact .inl (answer (x4 hu) ▸ .delay hu (by decide) _)
    · exact .inl (answer (x5 hu) ▸ .rxRead hu (by decide) _ _)
    · exact .inl (answer (x6 hu) ▸ .goto hu (by decide) rfl rfl le_rfl rfl)
    · exact .inl (answer (x7 hu) ▸ .callSetMode hu (by decide) _)
    · exact .inr ⟨_, answer (x8 hu)⟩
  | saveParams p =>
    obtain ⟨x1, x2, x3, x4, x5, x6, x7, x8⟩ := exec_saveParams p s
    simp only [Instr.owns, List.mem_cons, List.not_mem_nil, or_false, decide_eq_true_eq] at ho
    rcases ho with hu | hu | hu | hu | hu | hu | hu | hu
    · exact .inl (answer (x1 hu) ▸ .goto hu (by decide) rfl rfl le_rfl rfl)
    · exact .inl (answer (x2 hu) ▸ .callSetMode hu (by decide) _)
    · exact .inl (answer (x3 hu) ▸ .delay hu (by decide) _)
    · exact .inl (answer (x4 hu) ▸ .txWrite hu (by decide) _)
    · exact .inl (answer (x5 hu) ▸ .waitRx _ fun _ => .goto hu (by decide) rfl rfl le_rfl rfl)
    · exact .inl (answer (x6 hu) ▸ .rxRead hu (by decide) _ _)
    · exact .inl (answer (x7 hu) ▸ .callSetMode hu (by decide) _)
    · exact .inr ⟨_, answer (x8 hu)⟩
  | setCryptKey key =>
    obtain ⟨x1, x2, x3, x4, x5, x6, x7⟩ := exec_setCryptKey key s
    simp only [Instr.owns, List.mem_cons, List.not_mem_nil, or_false, decide_eq_true_eq] at ho
    rcases ho with hu | hu | hu | hu | hu | hu | hu
    · exact .inl (answer (x1 hu) ▸ .goto hu (by decide) rfl rfl le_rfl rfl)
    · exact .inl (answer (x2 hu) ▸ .callSetMode hu (by decide) _)
    · exact .inl (answer (x3 hu) ▸ .delay hu (by decide) _)
    · exact .inl (answer (x4 hu) ▸ .txWrite hu (by decide) _)
    · exact .inl (answer (x5 hu) ▸ .rxRead hu (by decide) _ _)
    · exact .inl (answer (x6 hu) ▸ .callSetMode hu (by decide) _)
    · exact .inr ⟨_, answer (x7 hu)⟩
  | send n =>
    obtain ⟨x1, x2, x3⟩ := exec_send n s
    simp only [Instr.owns, List.mem_cons, List.not_mem_nil, or_false, decide_eq_true_eq] at ho
    rcases ho with hu | hu | hu
    · exact .inl (answer (x1 hu) ▸ .txWrite hu (by decide) _)
    · exact .inl (answer (x2 hu) ▸ .busyWait hu (by decide))
    · exact .inr ⟨_, answer (x3 hu)⟩
  | receive n =>
    obtain ⟨x1, x2, x3, x4, x5, x6⟩ := exec_receive n s
    simp only [Instr.owns, List.mem_cons, List.not_mem_nil, or_false, decide_eq_true_eq] at ho
    rcases ho with hu | hu | hu | hu | hu | hu
    · exact .inl (answer (x1 hu) ▸ .goto hu (by decide) rfl rfl le_rfl rfl)
    · exact .inl (answer (x2 hu) ▸ .rxRead hu (by decide) _ _)
    · exact .inl (answer (x3 hu) ▸ .rssiPoll hu (by decide))
    · exact .inl (.rssiTake hu (by decide) ((x4 hu).symm.trans h))
    · exact .inl (answer (x5 hu) ▸ .busyWait hu (by decide))
    · exact .inr ⟨_, answer (x6 hu)⟩
  | queryRssi =>
    obtain ⟨x1, x2, x3, x4, x5, x6⟩ := exec_queryRssi s
    simp only [Instr.owns, List.mem_cons, List.not_mem_nil, or_false, decide_eq_true_eq] at ho
    rcases ho with hu | hu | hu | hu | hu | hu
    · have e := answer (x1 hu)
      split at e
      · next hc =>
        refine .inr ⟨s, e.trans ?_⟩
        rw [State.outcome, if_pos hu, if_pos hc, s.report_error (by decide)]
      · exact .inl (e ▸ .goto hu (by decide) rfl rfl le_rfl rfl)
    · exact .inl (answer (x2 hu) ▸ .goto hu (by decide) rfl rfl le_rfl rfl)
    · exact .inl (answer (x3 hu) ▸ .txWrite hu (by decide) _)
    · exact .inl (answer (x4 hu) ▸ .delay hu (by decide) _)
    · exact .inl (answer (x5 hu) ▸ .rxRead hu (by decide) _ _)
    · refine .inr ⟨s.sampleRssi, (answer (x6 hu)).trans ?_⟩
      rw [State.outcome, if_neg (by simp [hu])]

/-- A command at SET_MODE's labels is SET_MODE, or calls it (R51). -/
theorem State.Runs.callsSetMode {s : State} {i : Instr} (hr : s.Runs i) (hs : s.upc.isSetMode = true) :
    (∃ mc, i = .setMode mc) ∨ i.returns.isSome = true := by
  unfold State.Runs at hr
  rw [if_pos hs] at hr
  rcases hr with ⟨mc, rfl, -⟩ | ⟨p, hp, -⟩
  · exact .inl ⟨mc, rfl⟩
  · exact .inr (by simp [hp])

/-- A micro-step of the running command advances it or reports its one outcome (R252, R256). -/
theorem exec_advances {i : Instr} {s t : State} (hr : s.Runs i) (h : exec i s = .next t) :
    Advances s t ∨ ∃ u : State, t = u.report (s.outcome i) := by
  cases hs : s.upc.isSetMode
  · exact exec_own_advances hs (hr.own hs).2 h
  · have who := hr.callsSetMode hs
    rw [exec_of_isSetMode hs who] at h
    rcases State.setModeStep_advances h with adv | ⟨top, u, e⟩
    · exact .inl adv
    · rcases who with ⟨mc, rfl⟩ | hi
      · exact .inr ⟨u, e⟩
      · obtain ⟨l, hl⟩ := hr.called hs hi
        simp [hl] at top

/-! ### The codes as numbers -/

theorem countCode_toNat (count asked : BitVec 16) :
    (countCode count asked).toNat = if count.toNat ≠ asked.toNat then 1 else 0 := by
  unfold countCode
  simp only [ne_eq, BitVec.toNat_inj]
  split_ifs <;> rfl

theorem State.countOutcome_toNat (s : State) (n : BitVec 16) :
    (s.countOutcome n).toNat = if s.wcount.toNat ≠ n.toNat ∨ s.rcount.toNat ≠ n.toNat then 1 else 0 := by
  unfold State.countOutcome
  simp only [ne_eq, BitVec.toNat_inj]
  split_ifs <;> rfl

end Sys2Proof.Machine

open Sys2Proof Sys2Proof.Machine

/-- Settles O34: BUSY falls in a step of the running command, which reports the command's outcome. -/
theorem oneOutcomePerCommand : Obligations.OneOutcomePerCommand := by
  intro s t i hinv h hb ht hr hd
  obtain ⟨j, u, a, hn, hd', hx, rfl⟩ := step_lowers_busy h hb ht hr
  obtain rfl : j = i := by simpa [hd'] using hd
  obtain ⟨-, hrun⟩ := hinv.running hn hd
  obtain ⟨v, rfl⟩ := (exec_advances hrun hx).resolve_left fun ⟨kept, _⟩ =>
    absurd ((kept.trans hb).symm.trans ht) (by decide)
  refine ⟨rfl, decide_eq_true_iff, ?_⟩
  change (s.outcome j).toNat = _
  cases j with
  | readParams =>
    change s.readOutcome.toNat = _
    rw [State.readOutcome, apply_ite BitVec.toNat, apply_ite BitVec.toNat]
    rfl
  | saveParams p => exact s.countOutcome_toNat 9#16
  | setCryptKey key => exact s.countOutcome_toNat 5#16
  | send n | receive n => exact apply_ite BitVec.toNat _ 1#4 0#4
  | queryRssi =>
    rw [State.outcome, apply_ite BitVec.toNat, apply_ite BitVec.toNat, countCode_toNat]
    rfl
  | setMode mc | setField f v | getField f | loadReg r b | noiseDbm raw => rfl
end

section
/-! The runs of the default schedule (00_scope.md R21 to R23, 60_exceptions.md R261, log 1): while a command runs, each
step lessens its work or counts the timer on towards the end of a wait, and neither can go on for ever. -/

namespace Sys2Proof.Machine

/-! ### Waits end -/

/-- The TMR value at which a waiting primitive leaves, whatever has arrived (R187 to R190, R99). -/
def Prim.limit (p : Params) : Prim → Nat
  | .delay t | .waitRx t => t
  | .busyWait => if p.hasAux then p.tAuxTo else p.tBlind
  | .rxRead _ _ => p.rxTimeout
  | .drain | .txWrite _ _ => 0

/-- Every wait of the micro-programs is one that the timer can reach (log 13). -/
theorem State.limit_lt {s : State} {l : Label} {q : Prim} (hp : s.par.Reachable) (h : s.primAt l = some q) :
    q.limit s.par < 2 ^ 32 := by
  obtain ⟨hpre, hpost, haux, hblind, hrd, hsave, hq, hrx⟩ := hp
  have hbusy : (if s.par.hasAux then s.par.tAuxTo else s.par.tBlind) < 2 ^ 32 := by
    split
    · exact haux
    · exact hblind
  cases l
  case dr3 =>
    simp only [State.primAt] at h
    split at h <;> cases h
    exact (by decide : 5 < 2 ^ 32)
  all_goals cases h <;> simp only [Prim.limit, Config.tSaveResp] <;> omega

/-- A running block that holds, and for no answer, counts ticks, and its wait is not over yet. -/
theorem State.wait_of_held {s : State} (hn : s.upc ≠ .idle) (he : s.blockEnabled = false) (ht : s.txpend = false) :
    ∃ q, s.primAt s.upc = some q ∧ q.timed = true ∧ s.tmr.toNat < q.limit s.par := by
  have before : ∀ {t : Nat}, s.elapsed t = false → s.tmr.toNat < t := fun h => by simpa [State.elapsed] using h
  unfold State.blockEnabled at he
  split at he
  · simp [hn] at he
  · next t hq => exact ⟨_, hq, rfl, before he⟩
  · next t hq => exact ⟨_, hq, rfl, before (Bool.or_eq_false_iff.1 he).2⟩
  · simp at he
  · next hq =>
    refine ⟨_, hq, rfl, ?_⟩
    change _ < if s.par.hasAux then s.par.tAuxTo else s.par.tBlind
    split at he
    · next ha => exact (if_pos ha).symm ▸ before (Bool.or_eq_false_iff.1 he).2
    · next ha => exact (if_neg ha).symm ▸ before he
  · next hq => exact ⟨_, hq, rfl, before (Bool.or_eq_false_iff.1 he).2⟩
  · simp [ht] at he

/-- A tick in a wait counts. -/
theorem State.tick_of_held {s : State} (hp : s.par.Reachable) (hn : s.upc ≠ .idle) (he : s.blockEnabled = false)
    (ht : s.txpend = false) : s.tick.tmr.toNat = s.tmr.toNat + 1 ∧ s.tmr.toNat + 1 < 2 ^ 32 := by
  obtain ⟨q, hq, timed, waits⟩ := State.wait_of_held hn he ht
  have reached := State.limit_lt hp hq
  have counts : s.timedAt s.upc = true := by rw [State.timedAt, hq]; exact timed
  have below : s.tmr.toNat + 1 < 2 ^ 32 := Nat.lt_of_le_of_lt waits reached
  rw [State.tick_tmr_toNat, if_pos counts, min_eq_left (Nat.le_sub_one_of_lt below)]
  exact ⟨rfl, below⟩

/-! ### The agents' steps lessen the work -/

/-- The environment's answer has at most the bytes offered (R96, log 8). -/
theorem State.freeAnswer_le {s : State} {base n : Nat} (hp : s.txpend = true)
    (hn : s.primAt s.upc = some (.txWrite base n)) : s.freeAnswer.toNat ≤ n := by
  simp only [State.freeAnswer, State.offered, hp, hn, if_true]
  split
  · next hle => exact hle
  · exact Nat.mod_le n (2 ^ 16)

/-- The answer of the default schedule is taken, and ends the offer. -/
theorem State.Inv.txAnswer_free {s : State} (h : s.Inv) (hp : s.txpend = true) :
    ∃ log w, s.txAnswer s.freeAnswer = { s with txlog := log, txpend := false, txAns := some w } := by
  obtain ⟨offer, -⟩ := h.transfer
  obtain ⟨-, base, n, hn, -⟩ := offer hp
  exact ⟨_, _, State.txAnswer_taken hp hn (State.freeAnswer_le hp hn)⟩

/-- While a command runs, the host program's turn is an access, which BUSY lets write OVERRUN only. -/
theorem State.progStep_of_busy {s : State} (hb : s.busy = true) (hr : s.progReady = true) :
    ∃ x lines o b, s.prog = .access x :: lines ∧
      s.progStep = { s with prog := lines, overrun := o, busReads := b } := by
  unfold State.progReady at hr
  split at hr
  · cases hr
  · next x lines hl =>
    obtain ⟨o, b, e⟩ := State.access_of_busy (s := { s with prog := lines }) hb x
    exact ⟨x, lines, o, b, hl, (State.progStep_access hl).trans e⟩
  · simp [hb] at hr

/-! ### The run -/

/-- A bound on the steps of a run: the work left, with a whole count of the timer for each piece of it. -/
def State.runBound (s : State) : Nat := 2 ^ 32 * s.work + (2 ^ 32 - 1 - s.tmr.toNat)

theorem State.runBound_lt_of_work {s t : State} (h : t.work < s.work) : t.runBound < s.runBound := by
  unfold State.runBound
  omega

/-- While UPC is in a micro-program, it is that of the command latched (R51). -/
theorem State.Inv.latched {s : State} (h : s.Inv) (hu : s.upc ≠ .idle) :
    ∃ i, decode s.par.payloadMax s.cmdlat = .ok i ∧ s.Runs i := by
  have hr := h.run
  unfold State.RunInv at hr
  rw [if_neg hu] at hr
  exact hr.2

/-- BUSY = 1 only in a micro-program (R40). -/
theorem State.Inv.running_of_busy {s : State} (h : s.Inv) (hb : s.busy = true) : s.upc ≠ .idle :=
  fun e => absurd (hb.symm.trans (h.idle_iff.1 e)) (by decide)

/-- A step of the default schedule that the running command survives comes nearer to the command's end. -/
theorem State.Inv.step_nearer {s t : State} (hinv : s.Inv) (hp : s.par.Reachable) (hb : s.busy = true)
    (ha : s.agenda = []) (h : step s = .next t) :
    t.par = s.par ∧ t.cmdlat = s.cmdlat ∧ t.agenda = [] ∧ (t.busy = true → t.runBound < s.runBound) := by
  have hu := hinv.running_of_busy hb
  rcases step_cases h with ⟨m, rest, hm, -⟩ | ⟨-, ⟨he, hx⟩ | ⟨-, hw, rfl⟩ | ⟨-, -, hr, rfl⟩ | ⟨he, hw, -, rfl⟩⟩
  · simp [ha] at hm
  · have moved : t ≠ s := fun e => by simp [(HoldsUnlessEnabled.blockStep hinv hx).1 e] at he
    obtain ⟨-, i, hd, hx⟩ := (State.blockStep_cases hx).resolve_left fun idle => hu idle.1
    have same := SameOutside.exec hx
    refine ⟨same.par, same.cmdlat, same.agenda.trans ha, fun hb' => State.runBound_lt_of_work ?_⟩
    rcases exec_advances (hinv.running hu hd).2 hx with ⟨-, adv⟩ | ⟨u, rfl⟩
    · exact adv.resolve_left moved
    · cases hb'
  · obtain ⟨log, w, e⟩ := hinv.txAnswer_free hw
    rw [e]
    refine ⟨rfl, rfl, ha, fun _ => State.runBound_lt_of_work ?_⟩
    simp [State.work, State.labelsLeft, State.offerLeft, hw]
  · obtain ⟨x, lines, o, b, hl, e⟩ := State.progStep_of_busy hb hr
    rw [e]
    refine ⟨rfl, rfl, ha, fun _ => State.runBound_lt_of_work ?_⟩
    simp [State.work, State.labelsLeft, State.offerLeft, hl]
  · obtain ⟨counted, reached⟩ := State.tick_of_held hp hu he hw
    rw [s.tick_eq_setTmr]
    refine ⟨rfl, rfl, ha, fun _ => ?_⟩
    change 2 ^ 32 * s.work + (2 ^ 32 - 1 - s.tick.tmr.toNat) < s.runBound
    rw [State.runBound, counted]
    omega

end Sys2Proof.Machine

open Sys2Proof Sys2Proof.Machine

/-- Settles O37, by induction on the bound that every step of the run lessens; the step that ends it completes. -/
theorem everyCommandCompletes : Obligations.EveryCommandCompletes := by
  intro s hinv hp hb ha
  induction hn : s.runBound using Nat.strong_induction_on generalizing s with
  | _ n ih =>
    obtain ⟨t, ht, hinv'⟩ := everyStepKeepsInvariant s hinv
    obtain ⟨hpar, hcmd, ha', nearer⟩ := hinv.step_nearer hp hb ha ht
    cases hb' : t.busy
    · obtain ⟨i, hd, -⟩ := hinv.latched (hinv.running_of_busy hb)
      obtain ⟨done, -⟩ := oneOutcomePerCommand s t i hinv ht hb hb' (by simp [ha]) hd
      exact ⟨1, t, run_succ ht 0, hb', done, hcmd⟩
    · obtain ⟨k, u, hrun, hu⟩ := ih _ (hn ▸ nearer hb') t hinv' (hpar ▸ hp) hb' ha' rfl
      exact ⟨k + 1, u, (run_succ ht k).trans hrun, hcmd ▸ hu⟩

end

section
/-! Reset (70_reset_and_hazards.md R280 to R282): what the drawn memory reads as, and that a state after a reset is good,
the one a run begins in among them. -/

namespace Sys2Proof.Machine

/-- A drawn buffer byte reads as the first value listed for it, and as an unlisted byte where none is (R281; log 6). -/
theorem Memory.read_ofDraw {payloadMax a : Nat} (ha : isBufferByte payloadMax a = true) (cs : List Host.Cell) :
    (Memory.ofDraw payloadMax cs).read a =
      ((cs.filter fun c => c.1 == a).head?.map Prod.snd).getD Memory.unlisted := by
  induction cs with
  | nil => rfl
  | cons c cs ih =>
    obtain ⟨k, b⟩ := c
    by_cases hk : k = a
    · subst hk
      simp [Memory.ofDraw, ha, Memory.read_write _ (Memory.wf_ofDraw _ _)]
    · have skip : (Memory.ofDraw payloadMax ((k, b) :: cs)).read a = (Memory.ofDraw payloadMax cs).read a := by
        simp only [Memory.ofDraw]
        split
        · rw [Memory.read_write _ (Memory.wf_ofDraw _ _), if_neg hk]
        · rfl
      simp [skip, ih, hk]

/-- The pins show 00 after a reset (R280). -/
@[simp] theorem State.resetBlock_modeCode (s : State) (d : ResetDraw) : (s.resetBlock d).modeCode = 0#2 :=
  (by decide : (0#1 ++ 0#1 : BitVec 2) = 0#2)

/-- An idle block has staged no frame. -/
theorem State.wireInv_of_idle {s : State} (hu : s.upc = .idle) : s.WireInv :=
  fun hs => by simp [State.staged, hu] at hs

/-- The state of State.reset is one a run can begin in: that of its own parameters, draws and environment. -/
theorem State.reset_eq_initial :
    State.reset = State.initial Config.vectorParams ⟨Image.zero, []⟩ [] 0 [] [] := rfl

end Sys2Proof.Machine

open Sys2Proof Sys2Proof.Machine

/-- Settles O21: every register is a field of State.resetBlock, and a listed byte reads as its draw. -/
theorem resetStep : Obligations.ResetStep := by
  intro s rest d h
  refine ⟨_, step_of_agenda_cons h, ?_⟩
  iterate 30 refine ⟨rfl, ?_⟩
  intro a b hab ha
  exact (Memory.read_ofDraw ha d.cells).trans (by rw [hab]; rfl)

/-- Settles O22: with the offer withdrawn, an answer is unasked. -/
theorem resetAbandonsACommand : Obligations.ResetAbandonsACommand := by
  intro s rest d h
  refine ⟨_, step_of_agenda_cons h, rfl, rfl, rfl, State.resetBlock_modeCode .., rfl, rfl, rfl, fun w rest' => ?_⟩
  rw [step_of_agenda_cons rfl]
  exact congrArg Host.Outcome.next (State.txAnswer_unasked rfl w)

/-- Settles O24: a reset meets the invariant whatever it draws, and leaves the block idle. -/
theorem initialStatesMeetInvariant : Obligations.InitialStatesMeetInvariant :=
  fun _ d _ _ _ _ => ⟨State.resetBlock_inv _ d (Nat.le_refl 0), State.wireInv_of_idle rfl⟩

/-- Settles O23, as one of the states a run can begin in. -/
theorem resetStateMeetsInvariant : Obligations.ResetStateMeetsInvariant := by
  unfold Obligations.ResetStateMeetsInvariant
  rw [State.reset_eq_initial]
  exact initialStatesMeetInvariant ..

end
